-- ==== Sys2Proof/Word.lean ====
section
/-!
DEFINITION. The words of the block: bytes, 32-bit host registers, bit strings in stream order (rule R7), byte
strings, and the fixed sets of names that both the instructions and the state use.
-/

namespace Sys2Proof

/-- A byte, bit 7 most significant (R7). -/
abbrev Byte := BitVec 8

/-- A host-interface register, `REG_W` = 32 bits (R5, R21). -/
abbrev Word := BitVec 32

/-- A bit string in stream order, first bit first (R7). -/
abbrev BitStr := List Bool

/-- A byte string. -/
abbrev ByteStr := List Byte

/-- The five sets a horizontal code selects (R5). -/
inductive SetId where
  | alpha | sym | num | dict | delta
deriving DecidableEq, Repr

/-- The sets that can be the resting set: "SYM and DICT are always transient, never the resting state" (R32). -/
inductive Resting where
  | alpha | num | delta
deriving DecidableEq, Repr

/-- The three sets that hold symbols (R140). -/
inductive SymSet where
  | alpha | sym | num
deriving DecidableEq, Repr

/-- The direction of a call, latched by `INIT` (R26). -/
inductive Mode where
  | enc | dec
deriving DecidableEq, Repr

end Sys2Proof
end

