-- ==== Sys2Proof/Machine/Memory.lean ====
section
/-!
DEFINITION. A byte memory (IN, OUT; R38): a list of (address, byte) pairs in one canonical form, addresses strictly
rising and no entry equal to what an unlisted address reads as.
-/

namespace Sys2Proof.Machine

/-- A byte-addressed space from 0. -/
abbrev Memory := List Host.Cell

/-- What an address nothing has written reads as (log entry 3; DESIGN CHOICE). -/
def unwritten : Byte := 0

/-- `MemRead(M, a, 1)` (R9). -/
def Memory.read : Memory → Nat → Byte
  | [], _ => unwritten
  | (b, v) :: m, a => if a = b then v else Memory.read m a

/-- One cell in front of a memory, unless it says what an unlisted address reads as. -/
def Memory.cons (a : Nat) (v : Byte) (m : Memory) : Memory :=
  if v = unwritten then m else (a, v) :: m

/-- `MemWrite(M, a, 1, v)` (R9), in canonical form. -/
def Memory.write : Memory → Nat → Byte → Memory
  | [], a, v => Memory.cons a v []
  | (b, w) :: m, a, v =>
    if a < b then Memory.cons a v ((b, w) :: m)
    else if a = b then Memory.cons a v m
    else (b, w) :: Memory.write m a v

/-- Every address of a memory is above a bound. -/
def Memory.above (lo : Nat) (m : Memory) : Bool := m.all (fun c => decide (lo < c.1))

/-- The canonical form holds. -/
def Memory.wf : Memory → Bool
  | [] => true
  | (a, v) :: m => Memory.above a m && decide (v ≠ unwritten) && Memory.wf m

/-- A memory that holds a byte string from an address on. -/
def Memory.fill : Memory → Nat → ByteStr → Memory
  | m, _, [] => m
  | m, a, b :: bs => Memory.fill (Memory.write m a b) (a + 1) bs

/-- The bytes at addresses `a .. a+n-1`. -/
def Memory.slice (m : Memory) : Nat → Nat → ByteStr
  | _, 0 => []
  | a, n + 1 => m.read a :: Memory.slice m (a + 1) n

/-- Bit offset `o` of a memory: bit 7 - (o mod 8) of byte o div 8 (R7, R60). -/
def Memory.bit (m : Memory) (o : Nat) : Bool :=
  (m.read (o / 8)).getLsbD (7 - o % 8)

/-- A byte with bit `b` set to a value. -/
def setBitTo (x : Byte) (b : Nat) (v : Bool) : Byte :=
  if v then x ||| (1#8 <<< b) else x &&& ~~~(1#8 <<< b)

/-- One bit of an append (R121): the first bit written to a byte clears the byte; then the bit is set. -/
def Memory.putBit (m : Memory) (o : Nat) (v : Bool) : Memory :=
  let cleared := if o % 8 = 0 then m.write (o / 8) 0 else m
  cleared.write (o / 8) (setBitTo (cleared.read (o / 8)) (7 - o % 8) v)

/-- The bits of an append, one after another (R121). -/
def Memory.putBits : Memory → Nat → BitStr → Memory
  | m, _, [] => m
  | m, o, b :: bs => Memory.putBits (m.putBit o b) (o + 1) bs

end Sys2Proof.Machine
end

