-- ==== Sys2Proof/Config.lean ====
section
/-!
DEFINITION. What is fixed for a machine or for a call: the numeric parameters of R5, the type of a Preset (R140), and
the one free value of the model.
-/

namespace Sys2Proof

namespace Config

/-- `MIN_MATCH` (R5). -/
def minMatch : Nat := 5

/-- `COUNT_LIMIT` = CB[4] + 2^16 (R5, R181). -/
def countLimit : Nat := 67732

/-- `UNI_LIMIT` = UB[4] + 2^21 (R5, R201). -/
def uniLimit : Nat := 2183232

/-- `CP_MAX` (R5). -/
def cpMax : Nat := 0x10FFFF

/-- `MAX_BYTES` = 2^28 (R5). -/
def maxBytes : Nat := 2 ^ 28

/-- `PAD_BIT` (R5, R124). -/
def padBit : Bool := true

end Config

/-- What a pair (set, index) of a Preset stands for: `CHR[s][v]` when it is a byte, else `SPECIAL[s][v]` (R140). -/
inductive Symbol where
  | chr (c : Byte)
  | switch
  | esc
  | crlf
  | rpt
  | term
  | freq (i : Fin 6)
  | unassigned
deriving DecidableEq, Repr

/-- A Preset (R140): the horizontal codes by set number, the vertical codes by index (one array for the three sets),
the symbols of the three sets, the frequent substrings and the templates. `CLASS` is the inverse of `CHR` and no data of
its own. -/
structure Preset where
  hcode : Vector BitStr 5
  vcode : Vector BitStr 28
  alpha : Vector Symbol 28
  sym   : Vector Symbol 28
  num   : Vector Symbol 28
  freq  : Vector (Option ByteStr) 6
  tmpl  : Vector (Option ByteStr) 5
deriving DecidableEq, Repr

/-- FREE VALUE (log entry 7; DESIGN CHOICE). Rules R149, R154, R156, R161, R233, R240 and R253 speak of "the" index at
which a Preset holds a symbol. A Preset that passes R141 may hold some symbols (LF, CRLF, TAB, CR, RPT, FREQ(i)) nowhere
or more than once; the index is then not stated. It has no body: nothing can be proved of its value. -/
opaque Config.openIndex : Preset → Symbol → Nat

end Sys2Proof
end

