-- ==== Sys2Proof/Syntax.lean ====
section
/-!
DEFINITION. The instructions: one constructor per row of spec/opcode_table.json. The host commands carry no operand in
their word (R90); the wire forms carry the operands their bits hold (R94).
-/

namespace Sys2Proof

/-- One delta token (`dtoken` of R94): a magnitude of one of the five tiers (R100) or an escape (R209). -/
inductive DeltaTok where
  | tier0 (neg : Bool) (m : BitVec 6)
  | tier1 (neg : Bool) (m : BitVec 12)
  | tier2 (neg : Bool) (m : BitVec 14)
  | tier3 (neg : Bool) (m : BitVec 16)
  | tier4 (neg : Bool) (m : BitVec 21)
  | escape (e : Fin 5)
deriving DecidableEq, Repr

/-- The instructions of the block (R2): host commands and wire forms. -/
inductive Instr where
  /-- `INIT` (0x00, R371). -/
  | init
  /-- `BS.APPEND` (0x10, R122). -/
  | bsAppend
  /-- `BS.RDBIT` (0x11, R125). -/
  | bsRdbit
  /-- `BS.RD8` (0x12, R127). -/
  | bsRd8
  /-- `BS.RDINT` (0x13, R126). -/
  | bsRdint
  /-- `OUT.PUTB` (0x14, R129). -/
  | outPutb
  /-- `PC.CLASS` (0x20, R149). -/
  | pcClass
  /-- `PC.SW` (0x21, R152). -/
  | pcSw
  /-- `PC.LIT` (0x22, R154). -/
  | pcLit
  /-- `PC.CTRL` (0x23, R156). -/
  | pcCtrl
  /-- `PC.UPPER` (0x24, R158, R159). -/
  | pcUpper
  /-- `PC.ENTERD` (0x25, R160). -/
  | pcEnterd
  /-- `PC.TERM` (0x26, R161). -/
  | pcTerm
  /-- `PC.RDH` (0x27, R163). -/
  | pcRdh
  /-- `PC.RDV` (0x28, R164). -/
  | pcRdv
  /-- `STEP.ENC` (0x30, R183). -/
  | stepEnc
  /-- `STEP.DEC` (0x31, R184). -/
  | stepDec
  /-- `CNT.ENC` (0x32, R185). -/
  | cntEnc
  /-- `CNT.DEC` (0x33, R186). -/
  | cntDec
  /-- `UDL.ENC` (0x40, R205). -/
  | udlEnc
  /-- `UDL.DEC` (0x41, R208). -/
  | udlDec
  /-- `UDL.ESC` (0x42, R210). -/
  | udlEsc
  /-- `TK.BACKREF` (0x50, R235). -/
  | tkBackref
  /-- `TK.REPEAT` (0x51, R240). -/
  | tkRepeat
  /-- `TK.HEX` (0x52, R243). -/
  | tkHex
  /-- `TK.GUID` (0x53, R246). -/
  | tkGuid
  /-- `TK.TMPL` (0x54, R249). -/
  | tkTmpl
  /-- `TK.FREQ` (0x55, R253). -/
  | tkFreq
  /-- `TK.BIN` (0x56, R256). -/
  | tkBin
  /-- `TK.UNI1` (0x57, R259). -/
  | tkUni1
  /-- `SM.FIND` (0x60, R271). -/
  | smFind
  /-- `DEC.STEP` (0x70, R292). -/
  | decStep
  /-- `DEC.RUN` (0x71, R320). -/
  | decRun
  /-- A command number not in the table of R90 (R91). -/
  | illegal (n : BitVec 8)
  /-- The magic marker, `MAGIC_LEN` bits (R93). -/
  | magic
  /-- The horizontal code of ALPHA (R96). -/
  | hAlpha
  /-- The horizontal code of SYM (R96). -/
  | hSym
  /-- The horizontal code of NUM (R96). -/
  | hNum
  /-- The horizontal code of DICT (R96). -/
  | hDict
  /-- The horizontal code of DELTA (R96). -/
  | hDelta
  /-- The vertical code of index 0 (R97). -/
  | v0
  /-- The vertical code of index 1 (R97). -/
  | v1
  /-- The vertical code of index 2 (R97). -/
  | v2
  /-- The vertical code of index 3 (R97). -/
  | v3
  /-- The vertical code of index 4 (R97). -/
  | v4
  /-- The vertical code of index 5 (R97). -/
  | v5
  /-- The vertical code of index 6 (R97). -/
  | v6
  /-- The vertical code of index 7 (R97). -/
  | v7
  /-- The vertical code of index 8 (R97). -/
  | v8
  /-- The vertical code of index 9 (R97). -/
  | v9
  /-- The vertical code of index 10 (R97). -/
  | v10
  /-- The vertical code of index 11 (R97). -/
  | v11
  /-- The vertical code of index 12 (R97). -/
  | v12
  /-- The vertical code of index 13 (R97). -/
  | v13
  /-- The vertical code of index 14 (R97). -/
  | v14
  /-- The vertical code of index 15 (R97). -/
  | v15
  /-- The vertical code of index 16 (R97). -/
  | v16
  /-- The vertical code of index 17 (R97). -/
  | v17
  /-- The vertical code of index 18 (R97). -/
  | v18
  /-- The vertical code of index 19 (R97). -/
  | v19
  /-- The vertical code of index 20 (R97). -/
  | v20
  /-- The vertical code of index 21 (R97). -/
  | v21
  /-- The vertical code of index 22 (R97). -/
  | v22
  /-- The vertical code of index 23 (R97). -/
  | v23
  /-- The vertical code of index 24 (R97). -/
  | v24
  /-- The vertical code of index 25 (R97). -/
  | v25
  /-- The vertical code of index 26 (R97). -/
  | v26
  /-- The vertical code of index 27 (R97). -/
  | v27
  /-- The step code of index 0, cap 4 (R98). -/
  | step4_0
  /-- The step code of index 1, cap 4 (R98). -/
  | step4_1
  /-- The step code of index 2, cap 4 (R98). -/
  | step4_2
  /-- The step code of index 3, cap 4 (R98). -/
  | step4_3
  /-- The step code of index 4, cap 4 (R98). -/
  | step4_4
  /-- The step code of index 0, cap 5 (R98). -/
  | step5_0
  /-- The step code of index 1, cap 5 (R98). -/
  | step5_1
  /-- The step code of index 2, cap 5 (R98). -/
  | step5_2
  /-- The step code of index 3, cap 5 (R98). -/
  | step5_3
  /-- The step code of index 4, cap 5 (R98). -/
  | step5_4
  /-- The step code of index 5, cap 5 (R98). -/
  | step5_5
  /-- A count code of tier 0, field `f` (R99). -/
  | cntTier0 (f : BitVec 2)
  /-- A count code of tier 1, field `f` (R99). -/
  | cntTier1 (f : BitVec 4)
  /-- A count code of tier 2, field `f` (R99). -/
  | cntTier2 (f : BitVec 7)
  /-- A count code of tier 3, field `f` (R99). -/
  | cntTier3 (f : BitVec 11)
  /-- A count code of tier 4, field `f` (R99). -/
  | cntTier4 (f : BitVec 16)
  /-- A delta token of tier 0: sign, magnitude field (R100). -/
  | dltTier0 (neg : Bool) (m : BitVec 6)
  /-- A delta token of tier 1: sign, magnitude field (R100). -/
  | dltTier1 (neg : Bool) (m : BitVec 12)
  /-- A delta token of tier 2: sign, magnitude field (R100). -/
  | dltTier2 (neg : Bool) (m : BitVec 14)
  /-- A delta token of tier 3: sign, magnitude field (R100). -/
  | dltTier3 (neg : Bool) (m : BitVec 16)
  /-- A delta token of tier 4: sign, magnitude field (R100). -/
  | dltTier4 (neg : Bool) (m : BitVec 21)
  /-- The delta escape SPACE (R209). -/
  | desc0
  /-- The delta escape SWITCH (R209). -/
  | desc1
  /-- The delta escape COMMA (R209). -/
  | desc2
  /-- The delta escape PERIOD (R209). -/
  | desc3
  /-- The delta escape NEWLINE (R209). -/
  | desc4
  /-- A bare vertical code, symbol `v` of the resting set ALPHA or NUM (R94). -/
  | symbol (v : Fin 28)
  /-- The switch code and a horizontal code, in ALPHA or NUM (R151). -/
  | swResting (h : SetId)
  /-- The escape SWITCH and a horizontal code, in DELTA (R151). -/
  | swDelta (h : SetId)
  /-- One uppercase letter (R157). -/
  | shift (v : Fin 28)
  /-- All-uppercase mode on (R158). -/
  | upperOn
  /-- All-uppercase mode off (R159). -/
  | upperOff
  /-- The switch to ALPHA from another resting set (R152). -/
  | toAlpha
  /-- Make DELTA the resting set (R160). -/
  | enterd
  /-- A switch to SYM and symbol `v` of it (R154). -/
  | symSymbol (v : Fin 28)
  /-- A switch to NUM and symbol `v` of it (R150). -/
  | numSymbol (v : Fin 28)
  /-- A back-reference without line history (R235). -/
  | backref0 (len dist : Nat)
  /-- A back-reference with line history; `x` is the second count as coded (R235). -/
  | backref1 (len x line : Nat)
  /-- A transient switch to DELTA and one delta token (R259). -/
  | uni1 (d : DeltaTok)
  /-- `r` more copies of the last output byte (R240). -/
  | rpt (r : Nat)
  /-- The terminator (R161). -/
  | term
  /-- The padding after the terminator (R162). -/
  | pad
  /-- A template token: index, unmatched length, placeholder values (R249). -/
  | esc0Template (idx : Fin 5) (rem : Nat) (digits : List Nat)
  /-- A hex run, lower case (R243). -/
  | esc1HexLower (ns : List (BitVec 4))
  /-- A GUID, lower case (R246). -/
  | esc2GuidLower (ns : List (BitVec 4))
  /-- A hex run, upper case (R243). -/
  | esc3HexUpper (ns : List (BitVec 4))
  /-- A GUID, upper case (R246). -/
  | esc4GuidUpper (ns : List (BitVec 4))
  /-- A binary run (R256). -/
  | esc5Binary (bs : ByteStr)
  /-- The frequent substring 0 (R253). -/
  | freq0
  /-- The frequent substring 1 (R253). -/
  | freq1
  /-- The frequent substring 2 (R253). -/
  | freq2
  /-- The frequent substring 3 (R253). -/
  | freq3
  /-- The frequent substring 4 (R253). -/
  | freq4
  /-- The frequent substring 5 (R253). -/
  | freq5
  /-- A line-control symbol of SYM (R156). -/
  | ctrlLf
  /-- A line-control symbol of SYM (R156). -/
  | ctrlCrlf
  /-- A line-control symbol of SYM (R156). -/
  | ctrlTab
  /-- A line-control symbol of SYM (R156). -/
  | ctrlCr
deriving DecidableEq, Repr

end Sys2Proof
end

