-- ==== Sys2Proof/Machine/Codes.lean ====
section
/-!
DEFINITION. The bit strings of the wire format that do not depend on a Preset: fields, step codes, count codes, delta
tokens (rules R7, R98 to R101, R181 to R185, R201 to R209), and the byte forms that go with them: UTF-8 (R212), hex
digits (R234), template letters (R248).
-/

namespace Sys2Proof.Machine

/-- The n-bit field holding `v`: its binary digits, most significant first (R7). -/
def field : Nat → Nat → BitStr
  | 0, _ => []
  | n + 1, v => v.testBit n :: field n v

/-- The number a bit string spells, first bit most significant (R126). -/
def ofBits (s : BitStr) : Nat :=
  s.foldl (fun acc b => 2 * acc + b.toNat) 0

/-- `Step(i, c)`: i ones, then a zero unless i = c (R98, R182). -/
def stepBits (i c : Nat) : BitStr :=
  List.replicate i true ++ (if i < c then [false] else [])

/-- `CW[i]` (R181). -/
def countWidth : Nat → Nat
  | 0 => 2
  | 1 => 4
  | 2 => 7
  | 3 => 11
  | _ => 16

/-- `CB[i]` (R181). -/
def countBase : Nat → Nat
  | 0 => 0
  | 1 => 4
  | 2 => 20
  | 3 => 148
  | _ => 2196

/-- The least tier that covers a count; the fifth where none does (R185). -/
def countTier (v : Nat) : Nat :=
  if v < countBase 0 + 2 ^ countWidth 0 then 0
  else if v < countBase 1 + 2 ^ countWidth 1 then 1
  else if v < countBase 2 + 2 ^ countWidth 2 then 2
  else if v < countBase 3 + 2 ^ countWidth 3 then 3
  else 4

/-- The count code of tier `i` with field value `f` (R99). -/
def countCode (i f : Nat) : BitStr :=
  stepBits i 4 ++ field (countWidth i) f

/-- `CntBits(v)` (R185). -/
def cntBits (v : Nat) : BitStr :=
  countCode (countTier v) (v - countBase (countTier v))

/-- `UW[i]` (R201). -/
def deltaWidth : Nat → Nat
  | 0 => 6
  | 1 => 12
  | 2 => 14
  | 3 => 16
  | _ => 21

/-- `UB[i]` (R201). -/
def deltaBase : Nat → Nat
  | 0 => 0
  | 1 => 64
  | 2 => 4160
  | 3 => 20544
  | _ => 86080

/-- The least tier that covers a magnitude; the fifth where none does (R203). -/
def deltaTier (m : Nat) : Nat :=
  if m < deltaBase 0 + 2 ^ deltaWidth 0 then 0
  else if m < deltaBase 1 + 2 ^ deltaWidth 1 then 1
  else if m < deltaBase 2 + 2 ^ deltaWidth 2 then 2
  else if m < deltaBase 3 + 2 ^ deltaWidth 3 then 3
  else 4

/-- The delta token of tier `i`: step code, sign bit (1 = negative), magnitude field (R203). -/
def deltaCode (i : Nat) (neg : Bool) (f : Nat) : BitStr :=
  stepBits i 5 ++ (neg :: field (deltaWidth i) f)

/-- `DeltaBits(d)` (R203). -/
def deltaBits (d : Int) : BitStr :=
  deltaCode (deltaTier d.natAbs) (decide (d < 0)) (d.natAbs - deltaBase (deltaTier d.natAbs))

/-- The escape `e` of the delta code: "11111" and `Step(e, 4)` (R209). -/
def escapeBits (e : Nat) : BitStr :=
  stepBits 5 5 ++ stepBits e 4

/-- The signed difference of tier `i`, sign and field: `UB[i] + f` with the sign applied; a negative zero is 0
(R206, R207). -/
def deltaValue (i : Nat) (neg : Bool) (f : Nat) : Int :=
  if neg then - ((deltaBase i + f : Nat) : Int) else ((deltaBase i + f : Nat) : Int)

/-- The byte a literal escape stands for; 0 for SWITCH (R208, R209). -/
def escapeByte : Nat → Byte
  | 0 => 0x20
  | 1 => 0
  | 2 => 0x2C
  | 3 => 0x2E
  | _ => 0x0A

/-- The bits of one delta token (R203, R209). -/
def deltaTokBits : DeltaTok → BitStr
  | .tier0 neg m => deltaCode 0 neg m.toNat
  | .tier1 neg m => deltaCode 1 neg m.toNat
  | .tier2 neg m => deltaCode 2 neg m.toNat
  | .tier3 neg m => deltaCode 3 neg m.toNat
  | .tier4 neg m => deltaCode 4 neg m.toNat
  | .escape e => escapeBits e.val

/-- `Utf8(cp)`, lead byte first (R212). -/
def utf8 (cp : Nat) : ByteStr :=
  if cp < 0x800 then
    [BitVec.ofNat 8 (0xC0 + cp / 64), BitVec.ofNat 8 (0x80 + cp % 64)]
  else if cp < 0x10000 then
    [BitVec.ofNat 8 (0xE0 + cp / 4096), BitVec.ofNat 8 (0x80 + cp / 64 % 64), BitVec.ofNat 8 (0x80 + cp % 64)]
  else
    [BitVec.ofNat 8 (0xF0 + cp / 262144), BitVec.ofNat 8 (0x80 + cp / 4096 % 64),
      BitVec.ofNat 8 (0x80 + cp / 64 % 64), BitVec.ofNat 8 (0x80 + cp % 64)]

/-- The case a hex token writes its digits in. -/
inductive HexCase where
  | lower | upper
deriving DecidableEq, Repr

/-- `HexChar(x, up)` (R234). -/
def hexChar (x : Nat) (up : HexCase) : Byte :=
  if x < 10 then BitVec.ofNat 8 (0x30 + x)
  else match up with
    | .lower => BitVec.ofNat 8 (0x61 + x - 10)
    | .upper => BitVec.ofNat 8 (0x41 + x - 10)

/-- `HexVal(b, up)`, defined for the digits and for the letters of the one case (R234). -/
def hexVal (b : Byte) (up : HexCase) : Option Nat :=
  if 0x30 ≤ b.toNat ∧ b.toNat ≤ 0x39 then some (b.toNat - 0x30)
  else match up with
    | .lower => if 0x61 ≤ b.toNat ∧ b.toNat ≤ 0x66 then some (b.toNat - 0x61 + 10) else none
    | .upper => if 0x41 ≤ b.toNat ∧ b.toNat ≤ 0x46 then some (b.toNat - 0x41 + 10) else none

/-- The field width of a template letter, `none` for a literal (R248): `f` and `F` 4, `r` 3, `t` 2, `o` 1. -/
def letterWidth (t : Byte) : Option Nat :=
  if t = 0x66 ∨ t = 0x46 then some 4
  else if t = 0x72 then some 3
  else if t = 0x74 then some 2
  else if t = 0x6F then some 1
  else none

/-- The byte the decoder writes for a template letter with field value `x` (R248). -/
def letterByte (t : Byte) (x : Nat) : Byte :=
  if t = 0x66 then hexChar x .lower
  else if t = 0x46 then hexChar x .upper
  else BitVec.ofNat 8 (0x30 + x)

/-- The digit value with which an input byte matches a placeholder letter, if it does (R248). -/
def letterDigit (t b : Byte) : Option Nat :=
  if t = 0x66 then hexVal b .lower
  else if t = 0x46 then hexVal b .upper
  else
    match letterWidth t with
    | some w => if 0x30 ≤ b.toNat ∧ b.toNat < 0x30 + 2 ^ w then some (b.toNat - 0x30) else none
    | none => none

/-- Whether an input byte matches a template position: a placeholder by its digits, a literal by itself (R248). -/
def letterMatches (t b : Byte) : Bool :=
  match letterWidth t with
  | some _ => (letterDigit t b).isSome
  | none => decide (b = t)

/-- The widths of the placeholders of a template, in order (R249). -/
def placeholderWidths : ByteStr → List Nat
  | [] => []
  | t :: ts =>
    match letterWidth t with
    | some w => w :: placeholderWidths ts
    | none => placeholderWidths ts

/-- Fields of the given widths, one after another (R249). -/
def fieldsOf : List Nat → List Nat → BitStr
  | w :: ws, x :: xs => field w x ++ fieldsOf ws xs
  | _, _ => []

/-- Nibbles packed four bits each (R101). -/
def nibbleBits (ns : List (BitVec 4)) : BitStr :=
  ns.flatMap (fun x => field 4 x.toNat)

/-- Raw bytes packed eight bits each (R101). -/
def byteBits (bs : ByteStr) : BitStr :=
  bs.flatMap (fun b => field 8 b.toNat)

end Sys2Proof.Machine
end

