-- ==== Sys2Proof/Machine/Preset.lean ====
section
/-!
DEFINITION. The Preset: its lookups, its well-formedness as `INIT` checks it (R141), and the default Preset (R96, R97,
R143 to R148).
-/

namespace Sys2Proof

/-- The number of a set (R5). -/
def SetId.number : SetId → Fin 5
  | .alpha => 0
  | .sym => 1
  | .num => 2
  | .dict => 3
  | .delta => 4

/-- The set of a number. -/
def SetId.ofNumber : Fin 5 → SetId
  | 0 => .alpha
  | 1 => .sym
  | 2 => .num
  | 3 => .dict
  | 4 => .delta

/-- The number of a symbol set (R5). -/
def SymSet.number : SymSet → Nat
  | .alpha => 0
  | .sym => 1
  | .num => 2

/-- `HCODE[h]` (R140). -/
def Preset.h (p : Preset) (s : SetId) : BitStr := p.hcode[s.number]

/-- `VCODE[v]` (R140). -/
def Preset.v (p : Preset) (i : Fin 28) : BitStr := p.vcode[i]

/-- What the pair (s, v) stands for: `CHR[s][v]` or `SPECIAL[s][v]` (R140). -/
def Preset.symbol (p : Preset) (s : SymSet) (i : Fin 28) : Symbol :=
  match s with
  | .alpha => p.alpha[i]
  | .sym => p.sym[i]
  | .num => p.num[i]

/-- The indices 0 to 27. -/
def indices : List (Fin 28) := List.finRange 28

/-- The indices at which one set holds a symbol. -/
def Preset.placesIn (p : Preset) (s : SymSet) (y : Symbol) : List (Fin 28) :=
  indices.filter (fun i => p.symbol s i = y)

/-- The pairs at which the Preset holds a symbol. -/
def Preset.places (p : Preset) (y : Symbol) : List (SymSet × Fin 28) :=
  (p.placesIn .alpha y).map (fun i => (.alpha, i)) ++ (p.placesIn .sym y).map (fun i => (.sym, i)) ++
    (p.placesIn .num y).map (fun i => (.num, i))

/-- An index below 28 from the free number of log entry 7. -/
def freeIndex (n : Nat) : Fin 28 := ⟨n % 28, Nat.mod_lt n (by decide)⟩

/-- "The index v" of a set's symbol (R154, R156, R161, R233, R240): its one place. Where the set holds it nowhere or
more than once the spec states none, and the index is free (log entry 7). -/
def Preset.indexIn (p : Preset) (s : SymSet) (y : Symbol) : Fin 28 :=
  match p.placesIn s y with
  | [i] => i
  | [] => freeIndex (Config.openIndex p y)
  | i :: is => (i :: is).getD (Config.openIndex p y % (is.length + 1)) i

/-- "The pair (s, v)" of a symbol (R149, R253): its one place; free where the Preset holds it nowhere or more than once
(log entry 7). -/
def Preset.pairOf (p : Preset) (y : Symbol) : SymSet × Fin 28 :=
  match p.places y with
  | [q] => q
  | [] => (if Config.openIndex p y % 2 = 0 then .sym else .num, freeIndex (Config.openIndex p y / 2))
  | q :: qs => (q :: qs).getD (Config.openIndex p y % (qs.length + 1)) q

/-- The lowercase form of an ASCII letter; any other byte is itself. -/
def lowercase (c : Byte) : Byte :=
  if 0x41 ≤ c.toNat ∧ c.toNat ≤ 0x5A then c + 32 else c

/-- `CLASS[c]`: the pair with `CHR[s][v]` = lowercase(c) (R140). -/
def Preset.classOf (p : Preset) (c : Byte) : SymSet × Fin 28 :=
  p.pairOf (.chr (lowercase c))

/-- The index of SWITCH in ALPHA, of ESC in NUM and of the switch code, and the index of the space in ALPHA, in every
well-formed Preset (R141 (c), (d)). -/
def switchIndex : Fin 28 := 0

/-- See `switchIndex`: index 1 of ALPHA is the space. -/
def spaceIndex : Fin 28 := 1

/-- Neither of two codes starts with the other. -/
def codesApart (a b : BitStr) : Bool := !a.isPrefixOf b && !b.isPrefixOf a

/-- A list of codes is prefix-free. -/
def codesPrefixFree : List BitStr → Bool
  | [] => true
  | a :: as => as.all (codesApart a) && codesPrefixFree as

/-- Whether a byte is a lowercase ASCII letter. -/
def isLowerLetter (c : Byte) : Bool := decide (0x61 ≤ c.toNat ∧ c.toNat ≤ 0x7A)

/-- Whether a byte is an uppercase ASCII letter. -/
def isUpperLetter (c : Byte) : Bool := decide (0x41 ≤ c.toNat ∧ c.toNat ≤ 0x5A)

/-- R141 (a) and (e): the five horizontal codes are non-empty and prefix-free. -/
def Preset.wfHorizontal (p : Preset) : Bool :=
  p.hcode.toList.all (fun c => !c.isEmpty) && codesPrefixFree p.hcode.toList

/-- R141 (b): the 28 vertical codes are prefix-free, each 2 to 8 bits. -/
def Preset.wfVertical (p : Preset) : Bool :=
  p.vcode.toList.all (fun c => decide (2 ≤ c.length ∧ c.length ≤ 8)) && codesPrefixFree p.vcode.toList

/-- The 94 printable characters 0x21 to 0x7E (R140). -/
def printables : List Byte := (List.range 94).map (fun k => BitVec.ofNat 8 (0x21 + k))

/-- Whether ALPHA holds a lowercase letter at an index. -/
def Preset.letterAt (p : Preset) (i : Fin 28) : Bool :=
  match p.symbol .alpha i with
  | .chr c => isLowerLetter c
  | _ => false

/-- R141 (c): every printable character, lowercased if a letter, exactly once; the space at ALPHA 1, not in SYM and at
most once in NUM; ALPHA is the switch, the space and letters. -/
def Preset.wfCharacters (p : Preset) : Bool :=
  printables.all (fun c => decide ((p.places (.chr (lowercase c))).length = 1)) &&
    decide (p.symbol .alpha switchIndex = .switch) &&
    decide (p.symbol .alpha spaceIndex = .chr 0x20) &&
    (indices.drop 2).all p.letterAt &&
    decide ((p.placesIn .sym (.chr 0x20)).length = 0) &&
    decide ((p.placesIn .num (.chr 0x20)).length ≤ 1)

/-- R141 (d): SWITCH at ALPHA 0, ESC at NUM 0, exactly one TERM in NUM. -/
def Preset.wfSpecials (p : Preset) : Bool :=
  decide (p.symbol .alpha switchIndex = .switch) && decide (p.symbol .num switchIndex = .esc) &&
    decide ((p.placesIn .num .term).length = 1)

/-- A character of R140's range, 0x09 to 0x7E; a special symbol or none has no range. -/
def Symbol.inRange : Symbol → Bool
  | .chr c => decide (0x09 ≤ c.toNat ∧ c.toNat ≤ 0x7E)
  | .switch => true
  | .esc => true
  | .crlf => true
  | .rpt => true
  | .term => true
  | .freq _ => true
  | .unassigned => true

/-- The ranges of R140's types and the bound of R248: horizontal codes of at most 8 bits, characters 0x09 to 0x7E, frequent
substrings that are not empty (of any greater length: log entry 20; DESIGN CHOICE), templates of at most `COUNT_LIMIT` - 1
characters. -/
def Preset.wfRanges (p : Preset) : Bool :=
  p.hcode.toList.all (fun c => decide (c.length ≤ 8)) &&
    (p.alpha.toList ++ p.sym.toList ++ p.num.toList).all Symbol.inRange &&
    p.freq.toList.all (fun f => f.all (fun bs => !bs.isEmpty)) &&
    p.tmpl.toList.all (fun f => f.all (fun t => decide (t.length < Config.countLimit)))

/-- The well-formedness of a Preset that `INIT` checks: R141, and the ranges of R140 and R248, outside which a value is no
Preset. That `INIT` refuses such a value too is the model's choice (log entry 6; DESIGN CHOICE). -/
def Preset.wf (p : Preset) : Bool :=
  p.wfHorizontal && p.wfVertical && p.wfCharacters && p.wfSpecials && p.wfRanges

/-- The symbol of an ASCII code, for the tables below. -/
def ch (n : Nat) : Symbol := .chr (BitVec.ofNat 8 n)

/-- A byte string from ASCII codes, for the tables below. -/
def ascii (ns : List Nat) : ByteStr := ns.map (BitVec.ofNat 8)

/-- The horizontal codes of the default Preset (R96). -/
def defaultHcode : Vector BitStr 5 :=
  #v[[false, false], [false, true], [true, false], [true, true, false], [true, true, true]]

/-- The vertical codes of the default Preset (R97), each written as a field of its length. -/
def defaultVcode : Vector BitStr 28 :=
  #v[Machine.field 2 0b00, Machine.field 3 0b010, Machine.field 3 0b011, Machine.field 4 0b1000,
    Machine.field 4 0b1001, Machine.field 4 0b1010, Machine.field 4 0b1011, Machine.field 4 0b1100,
    Machine.field 5 0b11010, Machine.field 5 0b11011, Machine.field 6 0b111000, Machine.field 6 0b111001,
    Machine.field 6 0b111010, Machine.field 7 0b1110110, Machine.field 7 0b1110111, Machine.field 7 0b1111000,
    Machine.field 7 0b1111001, Machine.field 7 0b1111010, Machine.field 8 0b11110110, Machine.field 8 0b11110111,
    Machine.field 8 0b11111000, Machine.field 8 0b11111001, Machine.field 8 0b11111010, Machine.field 8 0b11111011,
    Machine.field 8 0b11111100, Machine.field 8 0b11111101, Machine.field 8 0b11111110, Machine.field 8 0b11111111]

/-- `CHR[ALPHA]` of the default Preset (R144): the switch, the space, then e t a o i n s r l c d h u p m b g w f y v k
q j x z. -/
def defaultAlpha : Vector Symbol 28 :=
  #v[.switch, ch 0x20, ch 0x65, ch 0x74, ch 0x61, ch 0x6F, ch 0x69, ch 0x6E, ch 0x73, ch 0x72, ch 0x6C, ch 0x63,
    ch 0x64, ch 0x68, ch 0x75, ch 0x70, ch 0x6D, ch 0x62, ch 0x67, ch 0x77, ch 0x66, ch 0x79, ch 0x76, ch 0x6B,
    ch 0x71, ch 0x6A, ch 0x78, ch 0x7A]

/-- `CHR[SYM]` and `SPECIAL[SYM]` of the default Preset (R145, R147). -/
def defaultSym : Vector Symbol 28 :=
  #v[ch 0x22, ch 0x7B, ch 0x7D, ch 0x5F, ch 0x3C, ch 0x3E, ch 0x3A, ch 0x0A, .crlf, ch 0x5B, ch 0x5D, ch 0x5C,
    ch 0x3B, ch 0x27, ch 0x09, ch 0x40, ch 0x2A, ch 0x26, ch 0x3F, ch 0x21, ch 0x5E, ch 0x7C, ch 0x0D, ch 0x7E,
    ch 0x60, .freq 0, .freq 1, .freq 2]

/-- `CHR[NUM]` and `SPECIAL[NUM]` of the default Preset (R146, R147). -/
def defaultNum : Vector Symbol 28 :=
  #v[.esc, ch 0x2C, ch 0x2E, ch 0x30, ch 0x31, ch 0x39, ch 0x32, ch 0x35, ch 0x2D, ch 0x2F, ch 0x33, ch 0x34,
    ch 0x36, ch 0x37, ch 0x38, ch 0x28, ch 0x29, ch 0x20, ch 0x3D, ch 0x2B, ch 0x24, ch 0x25, ch 0x23, .freq 3,
    .freq 4, .freq 5, .rpt, .term]

/-- `FREQ[0..5]` of the default Preset (R148). -/
def defaultFreq : Vector (Option ByteStr) 6 :=
  #v[some (ascii [0x22, 0x3A, 0x20, 0x22]), some (ascii [0x22, 0x3A, 0x20]), some (ascii [0x3C, 0x2F]),
    some (ascii [0x3D, 0x22]), some (ascii [0x22, 0x3A, 0x22]), some (ascii [0x3A, 0x2F, 0x2F])]

/-- `TMPL[0..4]` of the default Preset (R148): `tfff-of-tfTtf:rf:rf.fffZ`, `tfff-of-tf`, `(fff) fff-ffff`, `tf:rf:rf`,
absent. -/
def defaultTmpl : Vector (Option ByteStr) 5 :=
  #v[some (ascii [0x74, 0x66, 0x66, 0x66, 0x2D, 0x6F, 0x66, 0x2D, 0x74, 0x66, 0x54, 0x74, 0x66, 0x3A, 0x72, 0x66, 0x3A,
      0x72, 0x66, 0x2E, 0x66, 0x66, 0x66, 0x5A]),
    some (ascii [0x74, 0x66, 0x66, 0x66, 0x2D, 0x6F, 0x66, 0x2D, 0x74, 0x66]),
    some (ascii [0x28, 0x66, 0x66, 0x66, 0x29, 0x20, 0x66, 0x66, 0x66, 0x2D, 0x66, 0x66, 0x66, 0x66]),
    some (ascii [0x74, 0x66, 0x3A, 0x72, 0x66, 0x3A, 0x72, 0x66]), none]

/-- The default Preset (R143). -/
def Preset.default : Preset where
  hcode := defaultHcode
  vcode := defaultVcode
  alpha := defaultAlpha
  sym := defaultSym
  num := defaultNum
  freq := defaultFreq
  tmpl := defaultTmpl

end Sys2Proof

namespace Sys2Proof.Machine

/-- The name whose code is a bit string, if one is. -/
def findCode {α : Type} (codes : List (α × BitStr)) (s : BitStr) : Option α :=
  (codes.find? (fun q => q.2 == s)).map (·.1)

/-- The horizontal codes with their sets. -/
def horizontalCodes (p : Preset) : List (SetId × BitStr) :=
  [SetId.alpha, .sym, .num, .dict, .delta].map (fun h => (h, p.h h))

/-- The vertical codes with their indices. -/
def verticalCodes (p : Preset) : List (Fin 28 × BitStr) :=
  indices.map (fun i => (i, p.v i))

/-- The bits of `EmitSW(h)` (R151): in DELTA the escape SWITCH, else the switch code, then the horizontal code. -/
def switchBits (p : Preset) (cur : Resting) (h : SetId) : BitStr :=
  match cur with
  | .delta => stepBits 5 5 ++ stepBits 1 4 ++ p.h h
  | .alpha => p.v switchIndex ++ p.h h
  | .num => p.v switchIndex ++ p.h h

/-- The bits `VCODE[0] ++ HCODE[ALPHA]` (R157). -/
def shiftBits (p : Preset) : BitStr := p.v switchIndex ++ p.h .alpha

/-- A template by number; absent above 4 (R249). -/
def templateOf (p : Preset) (idx : Nat) : Option ByteStr :=
  if h : idx < 5 then p.tmpl[idx] else none

/-- A frequent substring by number; absent above 5 (R253). -/
def freqOf (p : Preset) (i : Nat) : Option ByteStr :=
  if h : i < 6 then p.freq[i] else none

/-- The symbol FREQ(i) by number; for a number above 5 there is none. -/
def freqSymbol (i : Nat) : Symbol :=
  if h : i < 6 then .freq ⟨i, h⟩ else .unassigned

end Sys2Proof.Machine
end

