-- ==== Sys2Proof/Machine/State.lean ====
section
/-!
DEFINITION. The state of the block (spec/10_state.md), the reasons a step can stop, and the state after power-on reset.
INVENTORY.md lists every field with its rule.
-/

namespace Sys2Proof.Machine

/-- The reasons a step stops with a fault. There are none: the block has no trap, every command ends with a status (R340,
R351), and every byte of every memory holds a value (log entry 3). Nobody raises one; that is unsafe only as entry 3 says. -/
inductive Fault where
deriving DecidableEq, Repr

/-- The reasons a step is refused. -/
inductive Refusal where
  /-- Raised by `exec` for an instruction that has no meaning yet; no arm does so. Safe: the model stops. -/
  | notModelled (mnemonic : String)
deriving DecidableEq, Repr

/-- The status codes (R340). -/
inductive Status where
  | ok | overflow | endInput | endTerm | malformed | range | refused
deriving DecidableEq, Repr

/-- The halt register: RUN, or the status with which the automaton halted (R35). -/
inductive Halt where
  | run | overflow | endInput | endTerm | malformed
deriving DecidableEq, Repr

/-- One turn of the host: the operands it writes to `A0` to `A3` and the number it then writes to `CMD` (R21). -/
structure HostWrite where
  cmd : BitVec 8
  a0 : Word
  a1 : Word
  a2 : Word
  a3 : Word
deriving DecidableEq, Repr

/-- The state of the block. Bit offsets, byte counts, capacities and codepoints are natural numbers (R8; log entry 5);
what software reads as a word is a bit vector. -/
structure State where
  /-- The host's command sequence still to be issued (the model's own field; log entry 1). -/
  host : List HostWrite
  /-- `A0` to `A3`, the operand registers (R21). -/
  a0 : Word
  a1 : Word
  a2 : Word
  a3 : Word
  /-- `R0` to `R3`, the result registers (R21). -/
  r0 : Word
  r1 : Word
  r2 : Word
  r3 : Word
  /-- `CMD` (R21). -/
  cmd : BitVec 8
  /-- `STATUS` (R22). -/
  status : Status
  /-- `NEED` (R22, R343). -/
  need : Nat
  /-- `READY` (R25). -/
  ready : Bool
  /-- `MODE` (R26). -/
  mode : Mode
  /-- `ILEN` (R6). -/
  ilen : Nat
  /-- `OCAP` (R6). -/
  ocap : Nat
  /-- `MAGIC_LEN` (R6). -/
  magicLen : Nat
  /-- `LHEN` (R6). -/
  lhen : Bool
  /-- `WOFF` (R27). -/
  woff : Nat
  /-- `ROFF` (R28). -/
  roff : Nat
  /-- `OPOS` (R29). -/
  opos : Nat
  /-- `OVF` (R30). -/
  ovf : Bool
  /-- `REOS` (R31). -/
  reos : Bool
  /-- `SET` (R32). -/
  curSet : Resting
  /-- `UPPER` (R33). -/
  upper : Bool
  /-- `PREV_CP` (R34). -/
  prevCp : Nat
  /-- `HALT` (R35). -/
  halt : Halt
  /-- The IN space (R38). -/
  inp : Memory
  /-- The OUT space (R38, R39). -/
  out : Memory
  /-- The PRESET space (R38, R140). -/
  preset : Preset
  /-- The LH space, most recent line first (R38, R278). -/
  lh : List ByteStr
deriving DecidableEq, Repr

/-- The state after power-on reset (R41, R370): `READY` is 0. The spec gives no other register a value; the values here
are log entry 2's, the spaces' contents log entries 3 and 4's, the empty command sequence log entry 1's. -/
def State.reset : State where
  host := []
  a0 := 0
  a1 := 0
  a2 := 0
  a3 := 0
  r0 := 0
  r1 := 0
  r2 := 0
  r3 := 0
  cmd := 0
  status := .ok
  need := 0
  ready := false
  mode := .enc
  ilen := 0
  ocap := 0
  magicLen := 0
  lhen := false
  woff := 0
  roff := 0
  opos := 0
  ovf := false
  reos := false
  curSet := .alpha
  upper := false
  prevCp := 0
  halt := .run
  inp := []
  out := []
  preset := Preset.default
  lh := []

end Sys2Proof.Machine
end

