-- ==== Sys2Proof/Machine/Cmd.lean ====
section
/-!
DEFINITION. How the pseudocode of the rules is written: a computation on the state that gives a value or raises a
status, the state written before a raise staying written (R9, R341).
-/

namespace Sys2Proof.Machine

/-- A piece of a rule's pseudocode: it reads and writes the state and may raise a status; what was written before the
raise stays (R341). -/
abbrev Cmd := EStateM Status State

/-- The state, read. -/
def readState : Cmd State := fun s => .ok s s

/-- A function of the state, read. -/
def look {α : Type} (f : State → α) : Cmd α := fun s => .ok (f s) s

/-- The state, written. -/
def update (f : State → State) : Cmd Unit := fun s => .ok () (f s)

/-- `raise X` (R341), and `halt X` inside the automaton (R291). -/
def raise {α : Type} (e : Status) : Cmd α := fun s => .error e s

/-- A test of a rule: raise the status unless the condition holds. -/
def require (ok : Prop) [Decidable ok] (e : Status) : Cmd Unit := if ok then pure () else raise e

/-- The state a computation ends in, raised or not. -/
def stateAfter {α : Type} : EStateM.Result Status State α → State
  | .ok _ s => s
  | .error _ s => s

end Sys2Proof.Machine
end

