-- ==== Sys2Proof/Machine/Flags.lean ====
section
/-!
DEFINITION. The flags: `OVF` with `NEED` (R30, R121, R128, R343), `REOS` (R31, R124, R293), `UPPER` (R33), `HALT` (R35,
R291), and the set register `SET` (R32). Nothing else is a flag (R36).
-/

namespace Sys2Proof.Machine

/-- A write is rejected for lack of capacity: `OVF` <- 1, `NEED` <- the least capacity that would have let it succeed,
Overflow (R343). -/
def raiseOverflow {α : Type} (need : Nat) : Cmd α := fun s =>
  .error .overflow { s with ovf := true, need := need }

/-- `eos`: "if `REOS` = 1 then `halt END_INPUT`" (R293). -/
def eos : Cmd Unit := fun s => if s.reos then .error .endInput s else .ok () s

/-- The code of a halt as a status (R35, R340). -/
def Halt.status : Halt → Status
  | .run => .ok
  | .overflow => .overflow
  | .endInput => .endInput
  | .endTerm => .endTerm
  | .malformed => .malformed

/-- The halt a raised status becomes inside the automaton (R291). The automaton raises only the four halting statuses. -/
def Halt.ofStatus : Status → Halt
  | .overflow => .overflow
  | .endInput => .endInput
  | .endTerm => .endTerm
  | .malformed => .malformed
  | .ok => .run
  | .range => .run
  | .refused => .run

/-- The number of a status code in `STATUS` (R340). -/
def Status.code : Status → BitVec 8
  | .ok => 0
  | .overflow => 1
  | .endInput => 2
  | .endTerm => 3
  | .malformed => 4
  | .range => 5
  | .refused => 6

/-- The number held in `HALT` (R35). -/
def Halt.code : Halt → BitVec 3
  | .run => 0
  | .overflow => 1
  | .endInput => 2
  | .endTerm => 3
  | .malformed => 4

/-- The number held in `SET` (R32). -/
def restingCode : Resting → BitVec 3
  | .alpha => 0
  | .num => 2
  | .delta => 4

/-- The symbol set of a resting set that has one; DELTA's tokens are no symbols (R94). -/
def restingSymbols : Resting → Option SymSet
  | .alpha => some .alpha
  | .num => some .num
  | .delta => none

/-- `SET <- h` for a switch to ALPHA or NUM; a switch to SYM, DICT or DELTA leaves `SET` (R150, R151). -/
def enterSet (h : SetId) : Cmd Unit := fun s =>
  match h with
  | .alpha => .ok () { s with curSet := .alpha }
  | .num => .ok () { s with curSet := .num }
  | .sym => .ok () s
  | .dict => .ok () s
  | .delta => .ok () s

/-- `UPPER <- b` (R33). -/
def setUpper (b : Bool) : Cmd Unit := fun s => .ok () { s with upper := b }

/-- `PREV_CP <- cp` (R34). -/
def setPrevCp (cp : Nat) : Cmd Unit := fun s => .ok () { s with prevCp := cp }

end Sys2Proof.Machine
end

