-- ==== Sys2Proof/Machine/Operands.lean ====
section
/-!
DEFINITION. The operands of the host commands (R21, R90): the registers `A0` to `A3` as numbers and as bytes, the
left-aligned code of `BS.APPEND` (R122), the flags of `INIT` (R371), runs of IN (R231) and what a token can carry of
them (R243, R246, R249); and the writes of the result registers.
-/

namespace Sys2Proof.Machine

/-- `A0` as an unsigned number (R21). -/
def opA0 : Cmd Nat := look (fun s => s.a0.toNat)

/-- `A1` as an unsigned number (R21). -/
def opA1 : Cmd Nat := look (fun s => s.a1.toNat)

/-- `A2` as an unsigned number (R21). -/
def opA2 : Cmd Nat := look (fun s => s.a2.toNat)

/-- `w[7:0]` (R122, R129, R149, R154). -/
def lowByte (w : Word) : Byte := w.setWidth 8

/-- `A0[7:0]`. -/
def opByte : Cmd Byte := look (fun s => lowByte s.a0)

/-- The bits `A0[7], A0[6], .., A0[8-n]` of a left-aligned code (R122). -/
def leftAligned (w : Word) (n : Nat) : BitStr :=
  (field 8 (lowByte w).toNat).take n

/-- `A3[3:0]`, `MAGIC_LEN` (R371). -/
def flagsMagicLen (w : Word) : Nat := w.toNat % 16

/-- `A3[4]`, `LHEN` (R371). -/
def flagsLhen (w : Word) : Bool := w.getLsbD 4

/-- `A3[31:5]`, which must be 0 (R371). -/
def flagsReserved (w : Word) : Nat := w.toNat / 32

/-- The set numbered by an operand, if one is (R5). -/
def setOfNumber : Nat → Option SetId
  | 0 => some .alpha
  | 1 => some .sym
  | 2 => some .num
  | 3 => some .dict
  | 4 => some .delta
  | _ => none

/-- The case named by an operand: 0 lower, 1 upper (R243, R246). -/
def caseOfNumber : Nat → Option HexCase
  | 0 => some .lower
  | 1 => some .upper
  | _ => none

/-- A list of results, if all are defined. -/
def allDefined {α : Type} : List (Option α) → Option (List α)
  | [] => some []
  | none :: _ => none
  | some x :: xs => (allDefined xs).map (x :: ·)

/-- The digit values of a run of hex digits of one case; undefined where a byte is no such digit (R243). -/
def hexValues (bs : ByteStr) (up : HexCase) : Option (List Nat) :=
  allDefined (bs.map (hexVal · up))

/-- Whether offset `k` of a GUID is a hyphen (R245). -/
def guidHyphen (k : Nat) : Bool := k = 8 || k = 13 || k = 18 || k = 23

/-- The digit values of a GUID of 36 bytes, hyphens at their places; undefined where the bytes have not that shape
(R245, R246). The first argument is the offset of the first byte. -/
def guidValues (up : HexCase) : Nat → ByteStr → Option (List Nat)
  | _, [] => some []
  | k, b :: bs =>
    if guidHyphen k then
      if b = 0x2D then guidValues up (k + 1) bs else none
    else
      match hexVal b up with
      | some x => (guidValues up (k + 1) bs).map (x :: ·)
      | none => none

/-- Whether bytes match the first positions of a template (R249). -/
def templateMatches : ByteStr → ByteStr → Bool
  | t :: ts, b :: bs => letterMatches t b && templateMatches ts bs
  | _, _ => true

/-- The placeholder values with which bytes match the first positions of a template, in order (R249). -/
def templateValues : ByteStr → ByteStr → List Nat
  | t :: ts, b :: bs =>
    match letterDigit t b with
    | some x => x :: templateValues ts bs
    | none => templateValues ts bs
  | _, _ => []

/-- The fields of hex digits, four bits each (R243). -/
def hexFields (xs : List Nat) : BitStr := xs.flatMap (field 4)

/-- `IN[pos .. pos+n-1]` (R231). -/
def runOf (s : State) (pos n : Nat) : ByteStr := s.inp.slice pos n

/-- `R0 <- v` (R9). -/
def setR0 (v : Nat) : Cmd Unit := fun s => .ok () { s with r0 := BitVec.ofNat 32 v }

/-- `R1 <- v` (R9). -/
def setR1 (v : Nat) : Cmd Unit := fun s => .ok () { s with r1 := BitVec.ofNat 32 v }

/-- `R2 <- v` (R9). -/
def setR2 (v : Nat) : Cmd Unit := fun s => .ok () { s with r2 := BitVec.ofNat 32 v }

/-- `R3 <- v` (R9). -/
def setR3 (v : Nat) : Cmd Unit := fun s => .ok () { s with r3 := BitVec.ofNat 32 v }

/-- `R1 <- sext_32(d)` (R8, R208). -/
def setR1Signed (d : Int) : Cmd Unit := fun s => .ok () { s with r1 := BitVec.ofInt 32 d }

end Sys2Proof.Machine
end

