-- ==== Sys2Proof/Machine/Ops.lean ====
section
/-!
DEFINITION. The shared operations: ending a command with a status (the block's "trap entry", R340, R341, R348, R351), the
checks before every command (R347, R348), the bit-stream unit (R121 to R128), the readers of codes, counts and delta heads
(R163, R164, R182, R186, R206) and the emitters of switches, symbols and escapes (R151, R162, R232, R233).
-/

namespace Sys2Proof.Machine

/-- The end of a command: `STATUS` takes the status the pseudocode raised, or OK, and the state is exactly the one the
pseudocode had produced at that point (R340, R341, R351). This is all the block has of a trap entry: nothing is saved and
nothing is vectored, so there is no return either (R352): the next command is simply issued. -/
def endCommand (body : Cmd Unit) (s : State) : State :=
  match body s with
  | .ok _ s' => { s' with status := .ok }
  | .error e s' => { s' with status := e }

/-- "`READY` = 0 and the command is not `INIT`": REFUSED (R347 (b)). -/
def checkReady : Cmd Unit := fun s => if s.ready then .ok () s else .error .refused s

/-- "The command is not legal in the current `MODE`": REFUSED (R347 (c)). -/
def checkMode (legal : Mode) : Cmd Unit := fun s => if s.mode = legal then .ok () s else .error .refused s

/-- A command of one mode, with the checks in the order of R348: READY, MODE, then its own rule. -/
def modeCommand (legal : Mode) (body : Cmd Unit) (s : State) : Host.Outcome State Fault Refusal :=
  .next (endCommand (do checkReady; checkMode legal; body) s)

/-- A command that is legal in both modes (R347 (c)). -/
def anyModeCommand (body : Cmd Unit) (s : State) : Host.Outcome State Fault Refusal :=
  .next (endCommand (do checkReady; body) s)

/-- `PutBits(s)` (R121): all of the bits or none. -/
def putBits (bits : BitStr) : Cmd Unit := fun s =>
  if s.ovf then .error .overflow s
  else if 8 * s.ocap < s.woff + bits.length then raiseOverflow ((s.woff + bits.length + 7) / 8) s
  else .ok () { s with out := s.out.putBits s.woff bits, woff := s.woff + bits.length }

/-- `GetBit()` (R124): past the end of IN the padding bit, and `REOS` is set. -/
def getBit : Cmd Bool := fun s =>
  if 8 * s.ilen ≤ s.roff then .ok Config.padBit { s with reos := true, roff := s.roff + 1 }
  else .ok (s.inp.bit s.roff) { s with roff := s.roff + 1 }

/-- `GetBits(n)` with the bits read so far (R126). -/
def getBitsFrom : Nat → Nat → Cmd Nat
  | acc, 0 => pure acc
  | acc, n + 1 => do
    let b ← getBit
    getBitsFrom (2 * acc + b.toNat) n

/-- `GetBits(n)` (R126). -/
def getBits (n : Nat) : Cmd Nat := getBitsFrom 0 n

/-- The bit at an offset of IN, or the padding bit past the end (R127). -/
def paddedBit (s : State) (o : Nat) : Bool :=
  if 8 * s.ilen ≤ o then Config.padBit else s.inp.bit o

/-- `Peek8()` (R127): it changes nothing. -/
def peek8 (s : State) : Nat :=
  ofBits ((List.range 8).map (fun i => paddedBit s (s.roff + i)))

/-- `PutByte(b)` (R128). -/
def putByte (b : Byte) : Cmd Unit := fun s =>
  if s.ovf then .error .overflow s
  else if s.ocap ≤ s.opos then raiseOverflow (s.ocap + 1) s
  else .ok () { s with out := s.out.write s.opos b, opos := s.opos + 1 }

/-- Bytes written one `PutByte` at a time, in order (R67). -/
def putBytes : ByteStr → Cmd Unit
  | [] => pure ()
  | b :: bs => do
    putByte b
    putBytes bs

/-- The loop of `ReadH` and `ReadV` (R163, R164): one bit at a time until a code is spelled; Malformed when no more bits
may be read. The second argument is the bits read so far, the third how many more may be read. The unit commands
raise it as R163 and R164 say even if some of the bits were padding; the automaton reads codes through `readElement`. -/
def readCode {α : Type} (codes : List (α × BitStr)) : BitStr → Nat → Cmd α
  | _, 0 => raise .malformed
  | s, n + 1 => do
    let b ← getBit
    match findCode codes (s ++ [b]) with
    | some x => pure x
    | none => readCode codes (s ++ [b]) n

/-- `ReadH()` (R163). -/
def readH : Cmd SetId := do
  let p ← look State.preset
  readCode (horizontalCodes p) [] 8

/-- `ReadV()` (R164). -/
def readV : Cmd (Fin 28) := do
  let p ← look State.preset
  readCode (verticalCodes p) [] 8

/-- The loop of `ReadStep(c)` (R182): the index so far, and how many more ones may be read. -/
def readStepFrom : Nat → Nat → Cmd Nat
  | i, 0 => pure i
  | i, n + 1 => do
    let b ← getBit
    if b then readStepFrom (i + 1) n else pure i

/-- `ReadStep(c)` (R182). -/
def readStep (c : Nat) : Cmd Nat := readStepFrom 0 c

/-- `ReadCnt()` (R186). -/
def readCnt : Cmd Nat := do
  let i ← readStep 4
  let f ← getBits (countWidth i)
  pure (countBase i + f)

/-- The head of a delta token as R206 returns it. -/
inductive DeltaHead where
  | delta (d : Int)
  | escape (e : Nat)
deriving DecidableEq, Repr

/-- `ReadDeltaHead()` (R206). -/
def readDeltaHead : Cmd DeltaHead := do
  let i ← readStep 5
  if i = 5 then do
    let e ← readStep 4
    pure (.escape e)
  else do
    let neg ← getBit
    let f ← getBits (deltaWidth i)
    pure (.delta (deltaValue i neg f))

/-- What R206 returns for the bits of a delta token. -/
def deltaTokHead : DeltaTok → DeltaHead
  | .tier0 neg m => .delta (deltaValue 0 neg m.toNat)
  | .tier1 neg m => .delta (deltaValue 1 neg m.toNat)
  | .tier2 neg m => .delta (deltaValue 2 neg m.toNat)
  | .tier3 neg m => .delta (deltaValue 3 neg m.toNat)
  | .tier4 neg m => .delta (deltaValue 4 neg m.toNat)
  | .escape e => .escape e.val

/-- Whether a codepoint can be the value of a delta: `0x80 .. CP_MAX` (R205, R208). -/
abbrev codepointOk (cp : Int) : Prop := 0x80 ≤ cp ∧ cp ≤ (Config.cpMax : Int)

/-- `EmitSW(h)` (R151): `SET` is written only if the append succeeded. -/
def emitSW (h : SetId) : Cmd Unit := do
  let s ← readState
  putBits (switchBits s.preset s.curSet h)
  enterSet h

/-- `if SET != h: EmitSW(h)`, for a resting set with a horizontal switch (R154, R158 to R161, R233). -/
def emitSWUnless (cur : Resting) (h : SetId) : Cmd Unit := do
  let s ← readState
  if s.curSet = cur then pure () else emitSW h

/-- The vertical code of an index, appended. -/
def emitV (v : Fin 28) : Cmd Unit := do
  let p ← look State.preset
  putBits (p.v v)

/-- `EmitNUM(v)` (R233). -/
def emitNUM (v : Fin 28) : Cmd Unit := do
  emitSWUnless .num .num
  emitV v

/-- `EmitESC(k)` (R232): always a switch to NUM, then ESC, index 0 in any well-formed Preset, then the sub-code. -/
def emitESC (k : Nat) : Cmd Unit := do
  emitSW .num
  emitV switchIndex
  putBits (stepBits k 5)

/-- `Pad()` (R162): the last bit again up to the byte boundary. -/
def padOut : Cmd Unit := do
  let s ← readState
  if s.woff % 8 = 0 then pure ()
  else putBits (List.replicate (8 - s.woff % 8) (s.out.bit (s.woff - 1)))

/-- The magic marker of `INIT` (R93, R371): written in ENC, skipped unread in DEC. -/
def marker : Cmd Unit := fun s =>
  match s.mode with
  | .enc => putBits (List.replicate s.magicLen true) s
  | .dec => .ok () { s with roff := s.magicLen }

/-- The bits of a wire form already recognised at `ROFF` are consumed. -/
def consume (bits : BitStr) : Cmd Unit := fun s =>
  .ok () { s with roff := s.roff + bits.length }

end Sys2Proof.Machine
end

