-- ==== Sys2Proof/Machine/BitStream.lean ====
section
/-!
DEFINITION. The commands of the bit-stream unit, spec/40_bit_io.md.
-/

namespace Sys2Proof.Machine

/-- `BS.APPEND` (R122). -/
def execBsAppend (s : State) : Host.Outcome State Fault Refusal :=
  modeCommand .enc (do
    let code ← look State.a0
    let n ← opA1
    require (n ≤ 8) .range
    putBits (leftAligned code n)
    let w ← look State.woff
    setR0 w) s

/-- `BS.RDBIT` (R125). -/
def execBsRdbit (s : State) : Host.Outcome State Fault Refusal :=
  modeCommand .dec (do
    let b ← getBit
    setR0 b.toNat) s

/-- `BS.RD8` (R127). -/
def execBsRd8 (s : State) : Host.Outcome State Fault Refusal :=
  modeCommand .dec (do
    let v ← look peek8
    setR0 v) s

/-- `BS.RDINT` (R126). -/
def execBsRdint (s : State) : Host.Outcome State Fault Refusal :=
  modeCommand .dec (do
    let n ← opA0
    require (n ≤ 32) .range
    let v ← getBits n
    setR0 v) s

/-- `OUT.PUTB` (R129). -/
def execOutPutb (s : State) : Host.Outcome State Fault Refusal :=
  modeCommand .dec (do
    let b ← opByte
    putByte b
    let w ← look State.opos
    setR0 w) s

end Sys2Proof.Machine
end

