-- ==== Sys2Proof/Machine/CountCodec.lean ====
section
/-!
DEFINITION. The commands of the count codec, spec/42_count_codec.md.
-/

namespace Sys2Proof.Machine

/-- `STEP.ENC` (R183). -/
def execStepEnc (s : State) : Host.Outcome State Fault Refusal :=
  modeCommand .enc (do
    let i ← opA0
    let c ← opA1
    require (1 ≤ c ∧ c ≤ 8 ∧ i ≤ c) .range
    putBits (stepBits i c)) s

/-- `STEP.DEC` (R184). -/
def execStepDec (s : State) : Host.Outcome State Fault Refusal :=
  modeCommand .dec (do
    let c ← opA0
    require (1 ≤ c ∧ c ≤ 8) .range
    let i ← readStep c
    setR0 i) s

/-- `CNT.ENC` (R185). -/
def execCntEnc (s : State) : Host.Outcome State Fault Refusal :=
  modeCommand .enc (do
    let v ← opA0
    require (v < Config.countLimit) .range
    putBits (cntBits v)) s

/-- `CNT.DEC` (R186). -/
def execCntDec (s : State) : Host.Outcome State Fault Refusal :=
  modeCommand .dec (do
    let v ← readCnt
    setR0 v) s

end Sys2Proof.Machine
end

