-- ==== Sys2Proof/Machine/Lifecycle.lean ====
section
/-!
DEFINITION. `INIT` (spec/70_reset_and_hazards.md) and the illegal command numbers (R91).
-/

namespace Sys2Proof.Machine

/-- The registers of a fresh call (R41, R371), before the marker. -/
def freshCall (mode : Mode) (ilen ocap magicLen : Nat) (lhen : Bool) (s : State) : State :=
  { s with
    mode := mode, ilen := ilen, ocap := ocap, magicLen := magicLen, lhen := lhen, ready := true,
    woff := 0, roff := 0, opos := 0, ovf := false, reos := false, halt := .run, need := 0,
    curSet := .alpha, upper := false, prevCp := 0, r0 := 0, r1 := 0, r2 := 0, r3 := 0 }

/-- The mode named by an operand (R371). -/
def modeOfNumber : Nat → Option Mode
  | 0 => some .enc
  | 1 => some .dec
  | _ => none

/-- The pseudocode of `INIT` (R371). -/
def initCall : Cmd Unit := do
  let s ← readState
  match modeOfNumber s.a0.toNat with
  | none => raise .range
  | some mode => do
    require (s.a1.toNat ≤ Config.maxBytes ∧ s.a2.toNat ≤ Config.maxBytes) .range
    require (flagsMagicLen s.a3 ≤ 8 ∧ flagsReserved s.a3 = 0) .range
    require (s.preset.wf = true) .refused
    update (freshCall mode s.a1.toNat s.a2.toNat (flagsMagicLen s.a3) (flagsLhen s.a3))
    marker

/-- `INIT` (R371): legal in any mode and with `READY` = 0. -/
def execInit (s : State) : Host.Outcome State Fault Refusal :=
  .next (endCommand initCall s)

/-- A command number outside the table (R91, R347 (a)): REFUSED, whatever the number, and no other state changes. -/
def execIllegal (_n : BitVec 8) (s : State) : Host.Outcome State Fault Refusal :=
  .next (endCommand (raise .refused) s)

end Sys2Proof.Machine
end

