-- ==== Sys2Proof/Machine/Matcher.lean ====
section
/-!
DEFINITION. The substring matcher, spec/45_matcher.md.
-/

namespace Sys2Proof.Machine

/-- `L_MAX`, the longest length a count can carry (R271). -/
def matchMaxLength : Nat := Config.countLimit - 1 + Config.minMatch

/-- `D_MAX`, the longest distance (R271). -/
def matchMaxDistance : Nat := Config.countLimit - 1 + Config.minMatch - 1

/-- A candidate of the search: length, distance or position, line index (R270). Length 0 is NotFound. -/
structure Match where
  len : Nat
  dist : Nat
  line : Nat
deriving DecidableEq, Repr

/-- A UTF-8 continuation byte (R275). -/
def isContinuation (b : Byte) : Bool := decide (b &&& 0xC0 = 0x80)

/-- `Trim(k)` (R271, R275). -/
def trimMatch (m : Memory) (ilen l : Nat) : Nat → Nat
  | 0 => 0
  | k + 1 =>
    if l + (k + 1) < ilen ∧ isContinuation (m.read (l + (k + 1))) = true then trimMatch m ilen l k else k + 1

/-- The extension loop of `SM.FIND` from `k` on (R271); the first argument is how far `k` may still grow. -/
def extendMatch (m : Memory) (ilen l j : Nat) : Nat → Nat → Nat
  | 0, k => k
  | n + 1, k =>
    if l + k < ilen ∧ j + k < l ∧ m.read (j + k) = m.read (l + k) then extendMatch m ilen l j n (k + 1) else k

/-- A candidate replaces the best only when it is long enough and strictly longer (R273, R276). -/
def betterMatch (best : Match) (k dist line : Nat) : Match :=
  if Config.minMatch ≤ k ∧ best.len < k then ⟨k, dist, line⟩ else best

/-- The downward scan over start positions `j` (R271); the first argument is how many positions are left. -/
def scanBack (m : Memory) (ilen l : Nat) : Nat → Nat → Match → Match
  | 0, _, best => best
  | n + 1, j, best =>
    scanBack m ilen l n (j - 1)
      (betterMatch best (trimMatch m ilen l (extendMatch m ilen l j matchMaxLength 0)) (l - j) 0)

/-- How many start positions the in-string scan has: `j` from `l - MIN_MATCH` down to `max(0, l - D_MAX)` (R271). -/
def scanCount (l : Nat) : Nat :=
  if l < Config.minMatch then 0 else l - Config.minMatch - (l - matchMaxDistance) + 1

/-- The extension loop of `FindLH` (R277). -/
def extendLine (m : Memory) (ilen l p : Nat) (line : ByteStr) : Nat → Nat → Nat
  | 0, k => k
  | n + 1, k =>
    if l + k < ilen ∧ p + k < line.length ∧ line.getD (p + k) 0 = m.read (l + k) then
      extendLine m ilen l p line n (k + 1)
    else k

/-- The scan over positions `p` of one line (R277); the first argument is how many positions are left. -/
def scanLine (m : Memory) (ilen l i : Nat) (line : ByteStr) : Nat → Nat → Match → Match
  | 0, _, best => best
  | n + 1, p, best =>
    scanLine m ilen l i line n (p + 1)
      (betterMatch best (trimMatch m ilen l (extendLine m ilen l p line matchMaxLength 0)) p i)

/-- How many positions a line has: `p` from 0 to `min(len(line) - MIN_MATCH, COUNT_LIMIT - 1)` (R277). -/
def linePositions (line : ByteStr) : Nat :=
  if line.length < Config.minMatch then 0 else min (line.length - Config.minMatch) (Config.countLimit - 1) + 1

/-- `FindLH` from line index `i` on (R277). -/
def scanLines (m : Memory) (ilen l : Nat) : Nat → List ByteStr → Match → Match
  | _, [], best => best
  | i, line :: lines, best =>
    if Config.countLimit ≤ i then best
    else scanLines m ilen l (i + 1) lines (scanLine m ilen l i line (linePositions line) 0 best)

/-- The in-string search of `SM.FIND` (R271). -/
def findInString (m : Memory) (ilen l : Nat) : Match :=
  scanBack m ilen l (scanCount l) (l - Config.minMatch) ⟨0, 0, 0⟩

/-- The whole search (R271, R277). -/
def findMatch (s : State) (l : Nat) : Match :=
  if s.lhen then scanLines s.inp s.ilen l 1 s.lh (findInString s.inp s.ilen l)
  else findInString s.inp s.ilen l

/-- The result registers of a search (R270). -/
def setMatch (m : Match) : Cmd Unit :=
  if m.len = 0 then do
    setR0 0
    setR1 0
    setR2 0
    setR3 0
  else do
    setR0 1
    setR1 m.len
    setR2 m.dist
    setR3 m.line

/-- `SM.FIND` (R271). -/
def execSmFind (s : State) : Host.Outcome State Fault Refusal :=
  modeCommand .enc (do
    let l ← opA0
    let t ← readState
    require (l ≤ t.ilen) .range
    setMatch (findMatch t l)) s

end Sys2Proof.Machine
end

