-- ==== Sys2Proof/Machine/PrefixCode.lean ====
section
/-!
DEFINITION. The commands of the prefix-code unit, spec/41_code_tables.md.
-/

namespace Sys2Proof.Machine

/-- The answer of `PC.CLASS` for a byte (R149): set number (0xFF for no literal), index, 1 for an uppercase letter. -/
def classify (p : Preset) (c : Byte) : Nat × Nat × Nat :=
  if isUpperLetter c then ((p.classOf c).1.number, (p.classOf c).2.val, 1)
  else if 0x21 ≤ c.toNat ∧ c.toNat ≤ 0x7E then ((p.classOf c).1.number, (p.classOf c).2.val, 0)
  else if c = 0x20 then (SymSet.alpha.number, spaceIndex.val, 0)
  else if (c = 0x0A ∨ c = 0x09 ∨ c = 0x0D) ∧ p.placesIn .sym (.chr c) ≠ [] then
    (SymSet.sym.number, (p.indexIn .sym (.chr c)).val, 0)
  else (0xFF, 0, 0)

/-- `PC.CLASS` (R149). -/
def execPcClass (s : State) : Host.Outcome State Fault Refusal :=
  anyModeCommand (do
    let c ← opByte
    let p ← look State.preset
    setR0 (classify p c).1
    setR1 (classify p c).2.1
    setR2 (classify p c).2.2) s

/-- `PC.SW` (R152): only "go to ALPHA" from another resting set is a token. -/
def execPcSw (s : State) : Host.Outcome State Fault Refusal :=
  modeCommand .enc (do
    let h ← opA0
    let cur ← look State.curSet
    require (setOfNumber h = some .alpha ∧ cur ≠ .alpha) .refused
    emitSW .alpha) s

/-- The uppercase branch of `PC.LIT` (R154). -/
def litUpper (c : Byte) : Cmd Unit := do
  emitSWUnless .alpha .alpha
  let s ← readState
  if s.upper then pure () else putBits (shiftBits s.preset)
  emitV (s.preset.classOf c).2

/-- The space branch of `PC.LIT` (R154). -/
def litSpace : Cmd Unit := do
  let s ← readState
  if s.curSet = .num ∧ s.preset.placesIn .num (.chr 0x20) ≠ [] then
    emitV (s.preset.indexIn .num (.chr 0x20))
  else if s.curSet = .delta then putBits (escapeBits 0)
  else do
    emitSWUnless .alpha .alpha
    emitV spaceIndex

/-- The last branch of `PC.LIT` (R154): a lowercase letter, a symbol of SYM or a symbol of NUM. -/
def litOther (c : Byte) : Cmd Unit := do
  let p ← look State.preset
  match (p.classOf c).1 with
  | .alpha => do
    emitSWUnless .alpha .alpha
    let s ← readState
    if s.upper then do
      putBits (shiftBits s.preset)
      setUpper false
    emitV (p.classOf c).2
  | .sym => do
    emitSW .sym
    emitV (p.classOf c).2
  | .num => do
    emitSWUnless .num .num
    emitV (p.classOf c).2

/-- The choice of branch in `PC.LIT` (R154). -/
def literal (c : Byte) : Cmd Unit := do
  let cur ← look State.curSet
  if isUpperLetter c then litUpper c
  else if c = 0x20 then litSpace
  else if cur = .delta ∧ c = 0x2C then putBits (escapeBits 2)
  else if cur = .delta ∧ c = 0x2E then putBits (escapeBits 3)
  else litOther c

/-- `PC.LIT` (R154). -/
def execPcLit (s : State) : Host.Outcome State Fault Refusal :=
  modeCommand .enc (do
    let c ← opByte
    require (0x20 ≤ c.toNat ∧ c.toNat ≤ 0x7E) .range
    literal c) s

/-- The symbol of a line-control kind: LF, CRLF, TAB, CR (R156). -/
def controlSymbol : Nat → Symbol
  | 0 => .chr 0x0A
  | 1 => .crlf
  | 2 => .chr 0x09
  | _ => .chr 0x0D

/-- `PC.CTRL` (R156). -/
def execPcCtrl (s : State) : Host.Outcome State Fault Refusal :=
  modeCommand .enc (do
    let kind ← opA0
    require (kind ≤ 3) .range
    let s0 ← readState
    if kind = 0 ∧ s0.curSet = .delta then putBits (escapeBits 4)
    else do
      emitSW .sym
      emitV (s0.preset.indexIn .sym (controlSymbol kind))) s

/-- All-upper on (R158). -/
def upperOnCommand : Cmd Unit := do
  let up ← look State.upper
  require (up = false) .refused
  emitSWUnless .alpha .alpha
  let p ← look State.preset
  putBits (shiftBits p ++ shiftBits p)
  setUpper true

/-- All-upper off (R159). -/
def upperOffCommand : Cmd Unit := do
  let up ← look State.upper
  require (up = true) .refused
  emitSWUnless .alpha .alpha
  let p ← look State.preset
  putBits (shiftBits p)
  setUpper false

/-- `PC.UPPER` (R158, R159): the test of `A0` comes first (R348). -/
def execPcUpper (s : State) : Host.Outcome State Fault Refusal :=
  modeCommand .enc (do
    let a ← opA0
    if a = 1 then upperOnCommand
    else if a = 0 then upperOffCommand
    else raise .range) s

/-- `PC.ENTERD` (R160). -/
def execPcEnterd (s : State) : Host.Outcome State Fault Refusal :=
  modeCommand .enc (do
    let cur ← look State.curSet
    require (cur ≠ .delta) .refused
    emitSWUnless .alpha .alpha
    let s1 ← readState
    if s1.upper then do
      putBits (shiftBits s1.preset)
      setUpper false
    putBits (shiftBits s1.preset ++ s1.preset.v spaceIndex)
    update (fun t => { t with curSet := .delta })) s

/-- `PC.TERM` (R161, R162). -/
def execPcTerm (s : State) : Host.Outcome State Fault Refusal :=
  modeCommand .enc (do
    let p ← look State.preset
    emitNUM (p.indexIn .num .term)
    padOut
    let w ← look State.woff
    setR0 ((w + 7) / 8)) s

/-- `PC.RDH` (R163). -/
def execPcRdh (s : State) : Host.Outcome State Fault Refusal :=
  modeCommand .dec (do
    let h ← readH
    setR0 h.number.val) s

/-- `PC.RDV` (R164). -/
def execPcRdv (s : State) : Host.Outcome State Fault Refusal :=
  modeCommand .dec (do
    let v ← readV
    setR0 v.val) s

end Sys2Proof.Machine
end

