-- ==== Sys2Proof/Machine/WireForms.lean ====
section
/-!
DEFINITION. What the wire forms depend on: the context in which bits are read (R95), where each form may stand (R94), and
which row of the opcode table a symbol after a switch is (R147, R156, R240, R253).
-/

namespace Sys2Proof.Machine

/-- What changes how the same bits decode (R95): the Preset, `SET`, `UPPER`, `LHEN`; and the lengths of the two forms
that carry none of their own, the marker (R93) and the padding (R162), with the padding's bit. -/
structure WireCtx where
  preset : Preset
  set : Resting
  upper : Bool
  lhen : Bool
  magicLen : Nat
  padLen : Nat
  padBit : Bool
deriving DecidableEq, Repr

/-- The context right after `INIT` in DEC mode with no marker and no line history (R41). -/
def initialCtx (p : Preset) : WireCtx :=
  { preset := p, set := .alpha, upper := false, lhen := false, magicLen := 0, padLen := 0, padBit := true }

/-- The FREQ row of an entry number. -/
def freqRow : Fin 6 → Instr
  | 0 => .freq0
  | 1 => .freq1
  | 2 => .freq2
  | 3 => .freq3
  | 4 => .freq4
  | 5 => .freq5

/-- The row of its own that a symbol of SYM or NUM has, where the Preset holds that symbol at this place only: the
line-control symbols (R156), the frequent substrings (R253) and the terminator (R161). -/
def specialRow (p : Preset) (set : SymSet) (v : Fin 28) : Option Instr :=
  match set, p.symbol set v with
  | .sym, .chr c =>
    if p.placesIn .sym (.chr c) = [v] then
      if c = 0x0A then some .ctrlLf else if c = 0x09 then some .ctrlTab else if c = 0x0D then some .ctrlCr else none
    else none
  | .sym, .crlf => if p.placesIn .sym .crlf = [v] then some .ctrlCrlf else none
  | .sym, .freq i => if p.places (.freq i) = [(.sym, v)] then some (freqRow i) else none
  | .num, .freq i => if p.places (.freq i) = [(.num, v)] then some (freqRow i) else none
  | .num, .term => if p.placesIn .num .term = [v] then some .term else none
  | _, _ => none

/-- Whether index `v` of NUM is the one place of RPT (R240). -/
def isRepeat (p : Preset) (v : Fin 28) : Bool := decide (p.placesIn .num .rpt = [v])

/-- Whether index `v` of NUM is the ESC of the ESC tokens, index 0 (R232). -/
def isEscape (p : Preset) (v : Fin 28) : Bool := decide (v = switchIndex ∧ p.symbol .num v = .esc)

/-- The bits before a NUM symbol that is not preceded by a switch of its own: the switch to NUM unless NUM is the
resting set (R233). -/
def numBits (c : WireCtx) (v : Fin 28) : BitStr :=
  match c.set with
  | .num => c.preset.v v
  | .alpha => switchBits c.preset .alpha .num ++ c.preset.v v
  | .delta => switchBits c.preset .delta .num ++ c.preset.v v

/-- The bits before an ESC token's own fields: always a switch, ESC, the sub-code (R232). -/
def escBits (c : WireCtx) (k : Nat) : BitStr :=
  switchBits c.preset c.set .num ++ c.preset.v switchIndex ++ stepBits k 5

/-- The switch to SYM and a vertical code (R154). -/
def symBits (c : WireCtx) (v : Fin 28) : BitStr :=
  switchBits c.preset c.set .sym ++ c.preset.v v

/-- The bits of a frequent substring (R253). -/
def freqBits (c : WireCtx) (i : Fin 6) : BitStr :=
  match c.preset.pairOf (.freq i) with
  | (.sym, v) => symBits c v
  | (.alpha, v) => numBits c v
  | (.num, v) => numBits c v

/-- Where a form may stand by `SET`, `UPPER` and `LHEN` (R94, and the context column of the opcode table). -/
def inContext (c : WireCtx) : Instr → Bool
  | .symbol v => decide (c.set ≠ .delta ∧ v ≠ switchIndex)
  | .swResting _ => decide (c.set ≠ .delta)
  | .swDelta _ => decide (c.set = .delta)
  | .shift v => decide (c.set = .alpha ∧ c.upper = false ∧ 2 ≤ v.val)
  | .upperOn => decide (c.set = .alpha ∧ c.upper = false)
  | .upperOff => decide (c.set = .alpha ∧ c.upper = true)
  | .toAlpha => decide (c.set ≠ .alpha)
  | .enterd => decide (c.set = .alpha ∧ c.upper = false)
  | .backref0 _ _ => !c.lhen
  | .backref1 _ _ _ => c.lhen
  | .uni1 _ => decide (c.set ≠ .delta)
  | _ => true

end Sys2Proof.Machine
end

