-- ==== Sys2Proof/WellFormed.lean ====
section
/-!
DEFINITION. Which instructions are well-formed in a context: the ones the spec's encodings admit (R94 to R105), so that a
decoder may answer them.
-/

namespace Sys2Proof

open Machine

/-- A count the count code can carry (R187). -/
def countFits (v : Nat) : Bool := decide (v < Config.countLimit)

/-- The placeholder values of a template token fit the placeholders of the positions it sends (R249). -/
def digitsFit : List Nat → List Nat → Bool
  | [], [] => true
  | w :: ws, x :: xs => decide (x < 2 ^ w) && digitsFit ws xs
  | _, _ => false

/-- A template token names a template the Preset has, an unmatched length within it, and one value per placeholder. -/
def templateFits (p : Preset) (idx : Fin 5) (rem : Nat) (digits : List Nat) : Bool :=
  match p.tmpl[idx] with
  | none => false
  | some t =>
    decide (rem ≤ t.length) && countFits rem && digitsFit (placeholderWidths (t.take (t.length - rem))) digits

/-- A frequent substring has one place, in SYM or in NUM (R253). -/
def freqPlaced (p : Preset) (i : Fin 6) : Bool :=
  match p.places (.freq i) with
  | [(.sym, _)] => true
  | [(.num, _)] => true
  | _ => false

/-- A symbol of SYM has one place there (R156). -/
def symPlaced (p : Preset) (y : Symbol) : Bool := decide ((p.placesIn .sym y).length = 1)

/-- A command number that R90 does not list (R91). -/
def unlisted (n : BitVec 8) : Bool :=
  !([0x00, 0x10, 0x11, 0x12, 0x13, 0x14, 0x20, 0x21, 0x22, 0x23, 0x24, 0x25, 0x26, 0x27, 0x28, 0x30, 0x31, 0x32, 0x33,
    0x40, 0x41, 0x42, 0x50, 0x51, 0x52, 0x53, 0x54, 0x55, 0x56, 0x57, 0x60, 0x70, 0x71] : List (BitVec 8)).contains n

/-- A symbol of NUM that no other row of the table stands for. -/
def plainNum (p : Preset) (v : Fin 28) : Bool :=
  decide (specialRow p .num v = none) && !isRepeat p v

/-- The checks on an instruction's operands, each by the rule of its form. -/
def operandsFit (c : WireCtx) : Instr → Bool
  | .illegal n => unlisted n
  | .symbol v => decide (c.set = .alpha) || plainNum c.preset v
  | .symSymbol v => decide (specialRow c.preset .sym v = none)
  | .numSymbol v => !isEscape c.preset v && (decide (c.set = .num) || plainNum c.preset v)
  | .backref0 len dist =>
    decide (Config.minMatch ≤ len) && countFits (len - Config.minMatch) &&
      decide (Config.minMatch - 1 ≤ dist) && countFits (dist - (Config.minMatch - 1))
  | .backref1 len x line => decide (Config.minMatch ≤ len) && countFits (len - Config.minMatch) && countFits x && countFits line
  | .uni1 d => decide (d ≠ .escape 1)
  | .rpt r => decide (4 ≤ r) && countFits (r - 4) && decide ((c.preset.placesIn .num .rpt).length = 1)
  | .esc0Template idx rem digits => templateFits c.preset idx rem digits
  | .esc1HexLower ns => decide (1 ≤ ns.length) && countFits ns.length
  | .esc2GuidLower ns => decide (ns.length = 32)
  | .esc3HexUpper ns => decide (1 ≤ ns.length) && countFits ns.length
  | .esc4GuidUpper ns => decide (ns.length = 32)
  | .esc5Binary bs => decide (1 ≤ bs.length) && countFits bs.length
  | .freq0 => freqPlaced c.preset 0
  | .freq1 => freqPlaced c.preset 1
  | .freq2 => freqPlaced c.preset 2
  | .freq3 => freqPlaced c.preset 3
  | .freq4 => freqPlaced c.preset 4
  | .freq5 => freqPlaced c.preset 5
  | .ctrlLf => symPlaced c.preset (.chr 0x0A)
  | .ctrlCrlf => symPlaced c.preset .crlf
  | .ctrlTab => symPlaced c.preset (.chr 0x09)
  | .ctrlCr => symPlaced c.preset (.chr 0x0D)
  | _ => true

/-- An instruction is well-formed in a context: it may stand there and its operands fit. -/
def wellFormed (c : WireCtx) (i : Instr) : Bool := inContext c i && operandsFit c i

end Sys2Proof
end

