-- ==== Sys2Proof/Decode.lean ====
section
/-!
DEFINITION. The decoder and the encoder. A host command is one byte (R90, R91). Wire bits are read by one of several
readers (R94): the whole-token reader of the automaton, and the readers of single codes, of a delta head, of a switch,
of the marker and of the padding. Every refusal has a name. The encoder follows.
-/

namespace Sys2Proof

open Machine

/-- Why bits are no instruction: they end too early, they spell no horizontal or no vertical code (R345 M1, M2), all-upper
on is not completed (M4), the escape SWITCH stands in a transient delta token (M5). -/
inductive DecodeError where
  | endOfBits
  | noHorizontalCode
  | noVerticalCode
  | notAllUpper
  | switchInTransient
deriving DecidableEq, Repr

/-- What is being read. -/
inductive Reader where
  | command | marker | padding | horizontal | vertical | step4 | step5 | count | delta | switch | token
deriving DecidableEq, Repr

/-- The instruction of a command number: one byte, all 8 bits the opcode; a number not in the table is illegal (R90, R91). -/
def decodeCommand (n : BitVec 8) : Instr :=
  match n.toNat with
  | 0x00 => .init
  | 0x10 => .bsAppend
  | 0x11 => .bsRdbit
  | 0x12 => .bsRd8
  | 0x13 => .bsRdint
  | 0x14 => .outPutb
  | 0x20 => .pcClass
  | 0x21 => .pcSw
  | 0x22 => .pcLit
  | 0x23 => .pcCtrl
  | 0x24 => .pcUpper
  | 0x25 => .pcEnterd
  | 0x26 => .pcTerm
  | 0x27 => .pcRdh
  | 0x28 => .pcRdv
  | 0x30 => .stepEnc
  | 0x31 => .stepDec
  | 0x32 => .cntEnc
  | 0x33 => .cntDec
  | 0x40 => .udlEnc
  | 0x41 => .udlDec
  | 0x42 => .udlEsc
  | 0x50 => .tkBackref
  | 0x51 => .tkRepeat
  | 0x52 => .tkHex
  | 0x53 => .tkGuid
  | 0x54 => .tkTmpl
  | 0x55 => .tkFreq
  | 0x56 => .tkBin
  | 0x57 => .tkUni1
  | 0x60 => .smFind
  | 0x70 => .decStep
  | 0x71 => .decRun
  | _ => .illegal n

/-- A reader of wire bits. -/
abbrev Parse := EStateM DecodeError BitStr

/-- Reading stops with a name. -/
def reject {α : Type} (e : DecodeError) : Parse α := fun bits => .error e bits

/-- One bit. -/
def takeBit : Parse Bool := fun bits =>
  match bits with
  | [] => .error .endOfBits []
  | b :: rest => .ok b rest

/-- A field, first bit most significant, after a value read so far (R7). -/
def takeFieldFrom : Nat → Nat → Parse Nat
  | acc, 0 => pure acc
  | acc, n + 1 => do
    let b ← takeBit
    takeFieldFrom (2 * acc + b.toNat) n

/-- An n-bit field (R7). -/
def takeField (n : Nat) : Parse Nat := takeFieldFrom 0 n

/-- A step code, after some ones (R98). -/
def takeStepFrom : Nat → Nat → Parse Nat
  | i, 0 => pure i
  | i, n + 1 => do
    let b ← takeBit
    if b then takeStepFrom (i + 1) n else pure i

/-- A step code of cap c (R98). -/
def takeStep (c : Nat) : Parse Nat := takeStepFrom 0 c

/-- A count (R99). -/
def takeCount : Parse Nat := do
  let i ← takeStep 4
  let f ← takeField (countWidth i)
  pure (countBase i + f)

/-- A prefix code of at most 8 bits (R163, R164). -/
def takeCode {α : Type} (codes : List (α × BitStr)) (e : DecodeError) : BitStr → Nat → Parse α
  | _, 0 => reject e
  | s, n + 1 => do
    let b ← takeBit
    match findCode codes (s ++ [b]) with
    | some x => pure x
    | none => takeCode codes e (s ++ [b]) n

/-- A horizontal code (R96). -/
def takeH (p : Preset) : Parse SetId := takeCode (horizontalCodes p) .noHorizontalCode [] 8

/-- A vertical code (R97). -/
def takeV (p : Preset) : Parse (Fin 28) := takeCode (verticalCodes p) .noVerticalCode [] 8

/-- A delta token's escape by number (R209). -/
def escapeTok : Nat → DeltaTok
  | 0 => .escape 0
  | 1 => .escape 1
  | 2 => .escape 2
  | 3 => .escape 3
  | _ => .escape 4

/-- A delta token by tier (R100). -/
def tierTok (i : Nat) (neg : Bool) (f : Nat) : DeltaTok :=
  match i with
  | 0 => .tier0 neg (BitVec.ofNat 6 f)
  | 1 => .tier1 neg (BitVec.ofNat 12 f)
  | 2 => .tier2 neg (BitVec.ofNat 14 f)
  | 3 => .tier3 neg (BitVec.ofNat 16 f)
  | _ => .tier4 neg (BitVec.ofNat 21 f)

/-- A delta token (R94, R100, R209). -/
def takeDelta : Parse DeltaTok := do
  let i ← takeStep 5
  if i = 5 then do
    let e ← takeStep 4
    pure (escapeTok e)
  else do
    let neg ← takeBit
    let f ← takeField (deltaWidth i)
    pure (tierTok i neg f)

/-- The row of a delta token that stands alone. -/
def deltaRow : DeltaTok → Instr
  | .tier0 neg m => .dltTier0 neg m
  | .tier1 neg m => .dltTier1 neg m
  | .tier2 neg m => .dltTier2 neg m
  | .tier3 neg m => .dltTier3 neg m
  | .tier4 neg m => .dltTier4 neg m
  | .escape e =>
    match e with
    | 0 => .desc0
    | 1 => .desc1
    | 2 => .desc2
    | 3 => .desc3
    | 4 => .desc4

/-- Nibbles of a hex run or a GUID (R101). -/
def takeNibbles : Nat → Parse (List (BitVec 4))
  | 0 => pure []
  | n + 1 => do
    let x ← takeField 4
    let xs ← takeNibbles n
    pure (BitVec.ofNat 4 x :: xs)

/-- Bytes of a binary run (R101). -/
def takeBytes : Nat → Parse ByteStr
  | 0 => pure []
  | n + 1 => do
    let x ← takeField 8
    let xs ← takeBytes n
    pure (BitVec.ofNat 8 x :: xs)

/-- The placeholder values of a template, by their widths (R249). -/
def takeDigits : List Nat → Parse (List Nat)
  | [] => pure []
  | w :: ws => do
    let x ← takeField w
    let xs ← takeDigits ws
    pure (x :: xs)

/-- The placeholder widths a template token sends; none where the Preset has no such template or the unmatched length is
beyond it: such a token is read and halts MALFORMED (R250). -/
def sentWidths (p : Preset) (idx rem : Nat) : List Nat :=
  match templateOf p idx with
  | none => []
  | some t => if rem ≤ t.length then placeholderWidths (t.take (t.length - rem)) else []

/-- An ESC token after its ESC symbol (R94, R232). -/
def takeEsc (p : Preset) : Parse Instr := do
  let k ← takeStep 5
  match k with
  | 0 => do
    let idx ← takeStep 4
    let rem ← takeCount
    let digits ← takeDigits (sentWidths p idx rem)
    pure (.esc0Template (Fin.ofNat 5 idx) rem digits)
  | 1 => do
    let n ← takeCount
    let ns ← takeNibbles n
    pure (.esc1HexLower ns)
  | 2 => do
    let ns ← takeNibbles 32
    pure (.esc2GuidLower ns)
  | 3 => do
    let n ← takeCount
    let ns ← takeNibbles n
    pure (.esc3HexUpper ns)
  | 4 => do
    let ns ← takeNibbles 32
    pure (.esc4GuidUpper ns)
  | _ => do
    let n ← takeCount
    let bs ← takeBytes n
    pure (.esc5Binary bs)

/-- The row of a NUM symbol that stands where its row of its own stands: RPT with its count, a special row, or the
general row given (R94). -/
def takeNumRow (p : Preset) (v : Fin 28) (general : Instr) : Parse Instr :=
  if isRepeat p v then do
    let n ← takeCount
    pure (.rpt (n + 4))
  else
    match specialRow p .num v with
    | some i => pure i
    | none => pure general

/-- What follows a switch to ALPHA (R94, R297). -/
def takeTailAlpha (c : WireCtx) : Parse Instr :=
  if c.set ≠ .alpha then pure .toAlpha
  else if c.upper then pure .upperOff
  else do
    let v ← takeV c.preset
    if v = switchIndex then do
      let h ← takeH c.preset
      if h = .alpha then pure .upperOn else reject .notAllUpper
    else if v = spaceIndex then pure .enterd
    else pure (.shift v)

/-- What follows a horizontal code after a switch (`tail(h)` of R94). -/
def takeTail (c : WireCtx) (h : SetId) : Parse Instr :=
  match h with
  | .sym => do
    let v ← takeV c.preset
    match specialRow c.preset .sym v with
    | some i => pure i
    | none => pure (.symSymbol v)
  | .num => do
    let v ← takeV c.preset
    if isEscape c.preset v then takeEsc c.preset
    else if c.set = .num then pure (.numSymbol v)
    else takeNumRow c.preset v (.numSymbol v)
  | .dict => do
    let l ← takeCount
    let x ← takeCount
    if c.lhen then do
      let i ← takeCount
      pure (.backref1 (l + Config.minMatch) x i)
    else pure (.backref0 (l + Config.minMatch) (x + (Config.minMatch - 1)))
  | .delta =>
    if c.set = .delta then pure (.swDelta .delta)
    else do
      let d ← takeDelta
      if d = .escape 1 then reject .switchInTransient else pure (.uni1 d)
  | .alpha => takeTailAlpha c

/-- A bare vertical code other than the switch code (R94). -/
def takeBare (c : WireCtx) (v : Fin 28) : Parse Instr :=
  if c.set = .num then takeNumRow c.preset v (.symbol v) else pure (.symbol v)

/-- A token (R94). -/
def takeToken (c : WireCtx) : Parse Instr :=
  if c.set = .delta then do
    let d ← takeDelta
    if d = .escape 1 then do
      let h ← takeH c.preset
      takeTail c h
    else pure (deltaRow d)
  else do
    let v ← takeV c.preset
    if v = switchIndex then do
      let h ← takeH c.preset
      takeTail c h
    else takeBare c v

/-- A switch alone: in DELTA the escape SWITCH and a horizontal code, else the switch code and one (R151). -/
def takeSwitch (c : WireCtx) : Parse Instr :=
  if c.set = .delta then do
    let d ← takeDelta
    if d = .escape 1 then do
      let h ← takeH c.preset
      pure (.swDelta h)
    else reject .noHorizontalCode
  else do
    let v ← takeV c.preset
    if v = switchIndex then do
      let h ← takeH c.preset
      pure (.swResting h)
    else reject .noHorizontalCode

/-- The row of a horizontal code (R96). -/
def horizontalRow : SetId → Instr
  | .alpha => .hAlpha
  | .sym => .hSym
  | .num => .hNum
  | .dict => .hDict
  | .delta => .hDelta

/-- The row of a vertical code (R97). -/
def verticalRow (v : Fin 28) : Instr :=
  match v.val with
  | 0 => .v0
  | 1 => .v1
  | 2 => .v2
  | 3 => .v3
  | 4 => .v4
  | 5 => .v5
  | 6 => .v6
  | 7 => .v7
  | 8 => .v8
  | 9 => .v9
  | 10 => .v10
  | 11 => .v11
  | 12 => .v12
  | 13 => .v13
  | 14 => .v14
  | 15 => .v15
  | 16 => .v16
  | 17 => .v17
  | 18 => .v18
  | 19 => .v19
  | 20 => .v20
  | 21 => .v21
  | 22 => .v22
  | 23 => .v23
  | 24 => .v24
  | 25 => .v25
  | 26 => .v26
  | _ => .v27

/-- The row of a step code of cap 4 (R98). -/
def step4Row : Nat → Instr
  | 0 => .step4_0
  | 1 => .step4_1
  | 2 => .step4_2
  | 3 => .step4_3
  | _ => .step4_4

/-- The row of a step code of cap 5 (R98). -/
def step5Row : Nat → Instr
  | 0 => .step5_0
  | 1 => .step5_1
  | 2 => .step5_2
  | 3 => .step5_3
  | 4 => .step5_4
  | _ => .step5_5

/-- The row of a count code (R99). -/
def countRow (i f : Nat) : Instr :=
  match i with
  | 0 => .cntTier0 (BitVec.ofNat 2 f)
  | 1 => .cntTier1 (BitVec.ofNat 4 f)
  | 2 => .cntTier2 (BitVec.ofNat 7 f)
  | 3 => .cntTier3 (BitVec.ofNat 11 f)
  | _ => .cntTier4 (BitVec.ofNat 16 f)

/-- What a reader reads in a context. -/
def take (r : Reader) (c : WireCtx) : Parse Instr :=
  match r with
  | .command => do
    let n ← takeField 8
    pure (decodeCommand (BitVec.ofNat 8 n))
  | .marker => do
    let _ ← takeField c.magicLen
    pure .magic
  | .padding => do
    let _ ← takeField c.padLen
    pure .pad
  | .horizontal => do
    let h ← takeH c.preset
    pure (horizontalRow h)
  | .vertical => do
    let v ← takeV c.preset
    pure (verticalRow v)
  | .step4 => do
    let i ← takeStep 4
    pure (step4Row i)
  | .step5 => do
    let i ← takeStep 5
    pure (step5Row i)
  | .count => do
    let i ← takeStep 4
    let f ← takeField (countWidth i)
    pure (countRow i f)
  | .delta => do
    let d ← takeDelta
    pure (deltaRow d)
  | .switch => takeSwitch c
  | .token => takeToken c

/-- The decoder: the instruction at the front of the bits and the bits after it, or a refusal by name. -/
def decode (r : Reader) (c : WireCtx) (bits : BitStr) : Except DecodeError (Instr × BitStr) :=
  match take r c bits with
  | .ok i rest => .ok (i, rest)
  | .error e _ => .error e

/-- The number of a host command (R90); `none` for a wire form. -/
def commandNumber : Instr → Option (BitVec 8)
  | .init => some 0x00
  | .bsAppend => some 0x10
  | .bsRdbit => some 0x11
  | .bsRd8 => some 0x12
  | .bsRdint => some 0x13
  | .outPutb => some 0x14
  | .pcClass => some 0x20
  | .pcSw => some 0x21
  | .pcLit => some 0x22
  | .pcCtrl => some 0x23
  | .pcUpper => some 0x24
  | .pcEnterd => some 0x25
  | .pcTerm => some 0x26
  | .pcRdh => some 0x27
  | .pcRdv => some 0x28
  | .stepEnc => some 0x30
  | .stepDec => some 0x31
  | .cntEnc => some 0x32
  | .cntDec => some 0x33
  | .udlEnc => some 0x40
  | .udlDec => some 0x41
  | .udlEsc => some 0x42
  | .tkBackref => some 0x50
  | .tkRepeat => some 0x51
  | .tkHex => some 0x52
  | .tkGuid => some 0x53
  | .tkTmpl => some 0x54
  | .tkFreq => some 0x55
  | .tkBin => some 0x56
  | .tkUni1 => some 0x57
  | .smFind => some 0x60
  | .decStep => some 0x70
  | .decRun => some 0x71
  | .illegal n => some n
  | _ => none

/-- The reader that reads an instruction. -/
def readerOf : Instr → Reader
  | .init => .command
  | .bsAppend => .command
  | .bsRdbit => .command
  | .bsRd8 => .command
  | .bsRdint => .command
  | .outPutb => .command
  | .pcClass => .command
  | .pcSw => .command
  | .pcLit => .command
  | .pcCtrl => .command
  | .pcUpper => .command
  | .pcEnterd => .command
  | .pcTerm => .command
  | .pcRdh => .command
  | .pcRdv => .command
  | .stepEnc => .command
  | .stepDec => .command
  | .cntEnc => .command
  | .cntDec => .command
  | .udlEnc => .command
  | .udlDec => .command
  | .udlEsc => .command
  | .tkBackref => .command
  | .tkRepeat => .command
  | .tkHex => .command
  | .tkGuid => .command
  | .tkTmpl => .command
  | .tkFreq => .command
  | .tkBin => .command
  | .tkUni1 => .command
  | .smFind => .command
  | .decStep => .command
  | .decRun => .command
  | .illegal _ => .command
  | .magic => .marker
  | .hAlpha => .horizontal
  | .hSym => .horizontal
  | .hNum => .horizontal
  | .hDict => .horizontal
  | .hDelta => .horizontal
  | .v0 => .vertical
  | .v1 => .vertical
  | .v2 => .vertical
  | .v3 => .vertical
  | .v4 => .vertical
  | .v5 => .vertical
  | .v6 => .vertical
  | .v7 => .vertical
  | .v8 => .vertical
  | .v9 => .vertical
  | .v10 => .vertical
  | .v11 => .vertical
  | .v12 => .vertical
  | .v13 => .vertical
  | .v14 => .vertical
  | .v15 => .vertical
  | .v16 => .vertical
  | .v17 => .vertical
  | .v18 => .vertical
  | .v19 => .vertical
  | .v20 => .vertical
  | .v21 => .vertical
  | .v22 => .vertical
  | .v23 => .vertical
  | .v24 => .vertical
  | .v25 => .vertical
  | .v26 => .vertical
  | .v27 => .vertical
  | .step4_0 => .step4
  | .step4_1 => .step4
  | .step4_2 => .step4
  | .step4_3 => .step4
  | .step4_4 => .step4
  | .step5_0 => .step5
  | .step5_1 => .step5
  | .step5_2 => .step5
  | .step5_3 => .step5
  | .step5_4 => .step5
  | .step5_5 => .step5
  | .cntTier0 _ => .count
  | .cntTier1 _ => .count
  | .cntTier2 _ => .count
  | .cntTier3 _ => .count
  | .cntTier4 _ => .count
  | .dltTier0 _ _ => .delta
  | .dltTier1 _ _ => .delta
  | .dltTier2 _ _ => .delta
  | .dltTier3 _ _ => .delta
  | .dltTier4 _ _ => .delta
  | .desc0 => .delta
  | .desc1 => .delta
  | .desc2 => .delta
  | .desc3 => .delta
  | .desc4 => .delta
  | .symbol _ => .token
  | .swResting _ => .switch
  | .swDelta _ => .switch
  | .shift _ => .token
  | .upperOn => .token
  | .upperOff => .token
  | .toAlpha => .token
  | .enterd => .token
  | .symSymbol _ => .token
  | .numSymbol _ => .token
  | .backref0 _ _ => .token
  | .backref1 _ _ _ => .token
  | .uni1 _ => .token
  | .rpt _ => .token
  | .term => .token
  | .pad => .padding
  | .esc0Template _ _ _ => .token
  | .esc1HexLower _ => .token
  | .esc2GuidLower _ => .token
  | .esc3HexUpper _ => .token
  | .esc4GuidUpper _ => .token
  | .esc5Binary _ => .token
  | .freq0 => .token
  | .freq1 => .token
  | .freq2 => .token
  | .freq3 => .token
  | .freq4 => .token
  | .freq5 => .token
  | .ctrlLf => .token
  | .ctrlCrlf => .token
  | .ctrlTab => .token
  | .ctrlCr => .token

/-- The bits of a form up to its payload: all of them, but for the ESC tokens, whose digits and bytes follow one by one. -/
def encodeHead (c : WireCtx) (i : Instr) : BitStr :=
  match i with
  | .init => field 8 0x00
  | .bsAppend => field 8 0x10
  | .bsRdbit => field 8 0x11
  | .bsRd8 => field 8 0x12
  | .bsRdint => field 8 0x13
  | .outPutb => field 8 0x14
  | .pcClass => field 8 0x20
  | .pcSw => field 8 0x21
  | .pcLit => field 8 0x22
  | .pcCtrl => field 8 0x23
  | .pcUpper => field 8 0x24
  | .pcEnterd => field 8 0x25
  | .pcTerm => field 8 0x26
  | .pcRdh => field 8 0x27
  | .pcRdv => field 8 0x28
  | .stepEnc => field 8 0x30
  | .stepDec => field 8 0x31
  | .cntEnc => field 8 0x32
  | .cntDec => field 8 0x33
  | .udlEnc => field 8 0x40
  | .udlDec => field 8 0x41
  | .udlEsc => field 8 0x42
  | .tkBackref => field 8 0x50
  | .tkRepeat => field 8 0x51
  | .tkHex => field 8 0x52
  | .tkGuid => field 8 0x53
  | .tkTmpl => field 8 0x54
  | .tkFreq => field 8 0x55
  | .tkBin => field 8 0x56
  | .tkUni1 => field 8 0x57
  | .smFind => field 8 0x60
  | .decStep => field 8 0x70
  | .decRun => field 8 0x71
  | .illegal n => field 8 n.toNat
  | .magic => List.replicate c.magicLen true
  | .hAlpha => c.preset.h .alpha
  | .hSym => c.preset.h .sym
  | .hNum => c.preset.h .num
  | .hDict => c.preset.h .dict
  | .hDelta => c.preset.h .delta
  | .v0 => c.preset.v 0
  | .v1 => c.preset.v 1
  | .v2 => c.preset.v 2
  | .v3 => c.preset.v 3
  | .v4 => c.preset.v 4
  | .v5 => c.preset.v 5
  | .v6 => c.preset.v 6
  | .v7 => c.preset.v 7
  | .v8 => c.preset.v 8
  | .v9 => c.preset.v 9
  | .v10 => c.preset.v 10
  | .v11 => c.preset.v 11
  | .v12 => c.preset.v 12
  | .v13 => c.preset.v 13
  | .v14 => c.preset.v 14
  | .v15 => c.preset.v 15
  | .v16 => c.preset.v 16
  | .v17 => c.preset.v 17
  | .v18 => c.preset.v 18
  | .v19 => c.preset.v 19
  | .v20 => c.preset.v 20
  | .v21 => c.preset.v 21
  | .v22 => c.preset.v 22
  | .v23 => c.preset.v 23
  | .v24 => c.preset.v 24
  | .v25 => c.preset.v 25
  | .v26 => c.preset.v 26
  | .v27 => c.preset.v 27
  | .step4_0 => stepBits 0 4
  | .step4_1 => stepBits 1 4
  | .step4_2 => stepBits 2 4
  | .step4_3 => stepBits 3 4
  | .step4_4 => stepBits 4 4
  | .step5_0 => stepBits 0 5
  | .step5_1 => stepBits 1 5
  | .step5_2 => stepBits 2 5
  | .step5_3 => stepBits 3 5
  | .step5_4 => stepBits 4 5
  | .step5_5 => stepBits 5 5
  | .cntTier0 f => countCode 0 f.toNat
  | .cntTier1 f => countCode 1 f.toNat
  | .cntTier2 f => countCode 2 f.toNat
  | .cntTier3 f => countCode 3 f.toNat
  | .cntTier4 f => countCode 4 f.toNat
  | .dltTier0 neg m => deltaCode 0 neg m.toNat
  | .dltTier1 neg m => deltaCode 1 neg m.toNat
  | .dltTier2 neg m => deltaCode 2 neg m.toNat
  | .dltTier3 neg m => deltaCode 3 neg m.toNat
  | .dltTier4 neg m => deltaCode 4 neg m.toNat
  | .desc0 => escapeBits 0
  | .desc1 => escapeBits 1
  | .desc2 => escapeBits 2
  | .desc3 => escapeBits 3
  | .desc4 => escapeBits 4
  | .symbol v => c.preset.v v
  | .swResting h => c.preset.v switchIndex ++ c.preset.h h
  | .swDelta h => escapeBits 1 ++ c.preset.h h
  | .shift v => shiftBits c.preset ++ c.preset.v v
  | .upperOn => shiftBits c.preset ++ shiftBits c.preset
  | .upperOff => shiftBits c.preset
  | .toAlpha => switchBits c.preset c.set .alpha
  | .enterd => shiftBits c.preset ++ c.preset.v spaceIndex
  | .symSymbol v => symBits c v
  | .numSymbol v => switchBits c.preset c.set .num ++ c.preset.v v
  | .backref0 len dist => switchBits c.preset c.set .dict ++ cntBits (len - Config.minMatch) ++ cntBits (dist - (Config.minMatch - 1))
  | .backref1 len x line => switchBits c.preset c.set .dict ++ cntBits (len - Config.minMatch) ++ cntBits x ++ cntBits line
  | .uni1 d => c.preset.v switchIndex ++ c.preset.h .delta ++ deltaTokBits d
  | .rpt r => numBits c (c.preset.indexIn .num .rpt) ++ cntBits (r - 4)
  | .term => numBits c (c.preset.indexIn .num .term)
  | .pad => List.replicate c.padLen c.padBit
  | .esc0Template idx rem _ => escBits c 0 ++ stepBits idx.val 4 ++ cntBits rem
  | .esc1HexLower ns => escBits c 1 ++ cntBits ns.length
  | .esc2GuidLower _ => escBits c 2
  | .esc3HexUpper ns => escBits c 3 ++ cntBits ns.length
  | .esc4GuidUpper _ => escBits c 4
  | .esc5Binary bs => escBits c 5 ++ cntBits bs.length
  | .freq0 => freqBits c 0
  | .freq1 => freqBits c 1
  | .freq2 => freqBits c 2
  | .freq3 => freqBits c 3
  | .freq4 => freqBits c 4
  | .freq5 => freqBits c 5
  | .ctrlLf => symBits c (c.preset.indexIn .sym (.chr 0x0A))
  | .ctrlCrlf => symBits c (c.preset.indexIn .sym .crlf)
  | .ctrlTab => symBits c (c.preset.indexIn .sym (.chr 0x09))
  | .ctrlCr => symBits c (c.preset.indexIn .sym (.chr 0x0D))

/-- The payload of an ESC token: nibbles, bytes or placeholder values (R101). -/
def encodePayload (c : WireCtx) (i : Instr) : BitStr :=
  match i with
  | .esc0Template idx rem digits => fieldsOf (sentWidths c.preset idx.val rem) digits
  | .esc1HexLower ns => nibbleBits ns
  | .esc2GuidLower ns => nibbleBits ns
  | .esc3HexUpper ns => nibbleBits ns
  | .esc4GuidUpper ns => nibbleBits ns
  | .esc5Binary bs => byteBits bs
  | _ => []

/-- The encoder: the bits of an instruction in a context, in stream order. A host command's 8 bits are its number. -/
def encode (c : WireCtx) (i : Instr) : BitStr := encodeHead c i ++ encodePayload c i

/-- The bits of a table word (R7): its bytes, the first in bits 7 to 0, each most significant bit first. -/
def wordBits : Nat → Nat → BitStr
  | 0, _ => []
  | n + 1, w => field 8 (w % 256) ++ wordBits n (w / 256)

/-- The zero bits after a table word: as many as any token with a fixed word may still read. -/
def wordTail : BitStr := List.replicate 128 false

/-- The reader of a table word of wire bits (log entry 11): a byte that is one whole vertical code is that code; any other
word is a token. -/
def wordReader (nbits w : Nat) : Reader :=
  if nbits = 8 ∧ (findCode (verticalCodes Preset.default) (wordBits 1 w)).isSome = true then .vertical else .token

/-- Whether a table word is read as a host command: one byte, and a number the command table has (log entry 11). -/
def isCommandWord (nbits w : Nat) : Bool :=
  decide (nbits = 8) && !unlisted (BitVec.ofNat 8 w)

/-- The instruction the decoder reads from a table word: a host command where the word is a listed command number, else
wire bits in the context right after `INIT` with the default Preset, zero bits following (log entry 11). -/
def decodeTableWord (nbits w : Nat) : Option Instr :=
  if isCommandWord nbits w then some (decodeCommand (BitVec.ofNat 8 w))
  else
    match decode (wordReader nbits w) (initialCtx Preset.default) (wordBits (nbits / 8) w ++ wordTail) with
    | .ok (i, _) => some i
    | .error _ => none

end Sys2Proof
end

