-- ==== Sys2Proof/Machine/DeltaCodec.lean ====
section
/-!
DEFINITION. The commands of the Unicode delta codec, spec/43_delta_codec.md.
-/

namespace Sys2Proof.Machine

/-- The delta of a codepoint, appended (R205, R259): `PREV_CP` is written only if the append succeeded. -/
def emitDelta (cp : Nat) : Cmd Unit := do
  let prev ← look State.prevCp
  putBits (deltaBits ((cp : Int) - (prev : Int)))
  setPrevCp cp

/-- `UDL.ENC` (R205). -/
def execUdlEnc (s : State) : Host.Outcome State Fault Refusal :=
  modeCommand .enc (do
    let cp ← opA0
    let cur ← look State.curSet
    require (cur = .delta) .refused
    require (codepointOk cp) .range
    emitDelta cp) s

/-- A magnitude of `UDL.DEC` (R208). -/
def applyUnitDelta (d : Int) : Cmd Unit := do
  let prev ← look State.prevCp
  require (codepointOk ((prev : Int) + d)) .malformed
  setPrevCp ((prev : Int) + d).toNat
  setR0 0
  setR1Signed d
  setR2 ((prev : Int) + d).toNat

/-- `UDL.DEC` (R208). -/
def execUdlDec (s : State) : Host.Outcome State Fault Refusal :=
  modeCommand .dec (do
    let x ← readDeltaHead
    match x with
    | .escape e => do
      setR0 1
      setR1 e
      setR2 (escapeByte e).toNat
    | .delta d => applyUnitDelta d) s

/-- `UDL.ESC` (R210). -/
def execUdlEsc (s : State) : Host.Outcome State Fault Refusal :=
  modeCommand .enc (do
    let e ← opA0
    let h ← opA1
    let cur ← look State.curSet
    require (cur = .delta) .refused
    require (e ≤ 4) .range
    if e = 1 then do
      require (setOfNumber h = some .alpha) .refused
      emitSW .alpha
    else putBits (escapeBits e)) s

end Sys2Proof.Machine
end

