-- ==== Sys2Proof/Machine/TokenPaths.lean ====
section
/-!
DEFINITION. The token commands, spec/44_token_paths.md.
-/

namespace Sys2Proof.Machine

/-- The second count of a back-reference, if the operands are in range (R235): the biased distance in the current string,
the position in an earlier line. -/
def backrefSecond (s : State) (len dist line : Nat) : Option Nat :=
  if s.lhen = false ∨ line = 0 then
    if dist < Config.minMatch - 1 ∨ Config.countLimit ≤ dist - (Config.minMatch - 1) then none
    else some (dist - (Config.minMatch - 1))
  else
    match s.lh[line - 1]? with
    | none => none
    | some l =>
      if l.length < dist + len ∨ Config.countLimit ≤ dist ∨ Config.countLimit ≤ line then none else some dist

/-- `TK.BACKREF` (R235). -/
def execTkBackref (s : State) : Host.Outcome State Fault Refusal :=
  modeCommand .enc (do
    let len ← opA0
    let dist ← opA1
    let line ← opA2
    require (Config.minMatch ≤ len ∧ len - Config.minMatch < Config.countLimit) .range
    let x? ← look (fun t => backrefSecond t len dist line)
    match x? with
    | none => raise .range
    | some x => do
      emitSW .dict
      putBits (cntBits (len - Config.minMatch))
      putBits (cntBits x)
      let lhen ← look State.lhen
      if lhen then putBits (cntBits line) else pure ()) s

/-- `TK.REPEAT` (R240). -/
def execTkRepeat (s : State) : Host.Outcome State Fault Refusal :=
  modeCommand .enc (do
    let r ← opA0
    require (4 ≤ r ∧ r - 4 < Config.countLimit) .range
    let p ← look State.preset
    emitNUM (p.indexIn .num .rpt)
    putBits (cntBits (r - 4))) s

/-- The ESC sub-code of a hex run (R232). -/
def hexSubcode : HexCase → Nat
  | .lower => 1
  | .upper => 3

/-- The ESC sub-code of a GUID (R232). -/
def guidSubcode : HexCase → Nat
  | .lower => 2
  | .upper => 4

/-- `TK.HEX` (R243). -/
def execTkHex (s : State) : Host.Outcome State Fault Refusal :=
  modeCommand .enc (do
    let pos ← opA0
    let n ← opA1
    let up ← opA2
    let t ← readState
    match caseOfNumber up with
    | none => raise .range
    | some c => do
      require (1 ≤ n ∧ n < Config.countLimit ∧ pos + n ≤ t.ilen) .range
      match hexValues (runOf t pos n) c with
      | none => raise .range
      | some xs => do
        emitESC (hexSubcode c)
        putBits (cntBits n)
        putBits (hexFields xs)) s

/-- `TK.GUID` (R246). -/
def execTkGuid (s : State) : Host.Outcome State Fault Refusal :=
  modeCommand .enc (do
    let pos ← opA0
    let up ← opA1
    let t ← readState
    match caseOfNumber up with
    | none => raise .range
    | some c => do
      require (pos + 36 ≤ t.ilen) .range
      match guidValues c 0 (runOf t pos 36) with
      | none => raise .range
      | some xs => do
        emitESC (guidSubcode c)
        putBits (hexFields xs)) s

/-- `TK.TMPL` (R249). The last of the length tests is R187's for the count of the unmatched positions. It can fail only in a
state that no `INIT` leaves: R248 bounds a template below `COUNT_LIMIT`, and the model's `INIT` refuses a longer one (log
entries 6 and 8; DESIGN CHOICE). -/
def execTkTmpl (s : State) : Host.Outcome State Fault Refusal :=
  modeCommand .enc (do
    let idx ← opA0
    let pos ← opA1
    let m ← opA2
    let st ← readState
    match templateOf st.preset idx with
    | none => raise .range
    | some t => do
      require (1 ≤ m ∧ m ≤ t.length ∧ pos + m ≤ st.ilen ∧ t.length - m < Config.countLimit) .range
      require (templateMatches (t.take m) (runOf st pos m) = true) .range
      emitESC 0
      putBits (stepBits idx 4)
      putBits (cntBits (t.length - m))
      putBits (fieldsOf (placeholderWidths (t.take m)) (templateValues (t.take m) (runOf st pos m)))) s

/-- `TK.FREQ` (R253). -/
def execTkFreq (s : State) : Host.Outcome State Fault Refusal :=
  modeCommand .enc (do
    let i ← opA0
    let p ← look State.preset
    require ((freqOf p i).isSome = true) .range
    match p.pairOf (freqSymbol i) with
    | (.sym, v) => do
      emitSW .sym
      emitV v
    | (.alpha, v) => emitNUM v
    | (.num, v) => emitNUM v) s

/-- `TK.BIN` (R256). -/
def execTkBin (s : State) : Host.Outcome State Fault Refusal :=
  modeCommand .enc (do
    let pos ← opA0
    let n ← opA1
    let t ← readState
    require (1 ≤ n ∧ n < Config.countLimit ∧ pos + n ≤ t.ilen) .range
    emitESC 5
    putBits (cntBits n)
    putBits (byteBits (runOf t pos n))) s

/-- `TK.UNI1` (R259). -/
def execTkUni1 (s : State) : Host.Outcome State Fault Refusal :=
  modeCommand .enc (do
    let cp ← opA0
    let t ← readState
    require (t.curSet ≠ .delta) .refused
    require (codepointOk cp) .range
    putBits (t.preset.v switchIndex ++ t.preset.h .delta)
    emitDelta cp) s

end Sys2Proof.Machine
end

