-- ==== Sys2Proof/Machine/Automaton.lean ====
section
/-!
DEFINITION. The decode automaton, spec/46_decode_dispatch.md, with the expansions of spec/44_token_paths.md.
-/

namespace Sys2Proof.Machine

/-- The read of a code with the `eos` after it (R293): a code any of whose bits were padding ends the decode END_INPUT,
whether the bits spell a code or none (D7; log entry 19: DEDUCED); bits of IN that spell none are MALFORMED (R345 M1, M2). -/
def readElement {α : Type} (read : Cmd α) : Cmd α := fun s =>
  match read s with
  | .ok x t => if t.reos then .error .endInput t else .ok x t
  | .error e t => if t.reos then .error .endInput t else .error e t

/-- The copy of a back-reference in the current string (R236): byte by byte, each read after the one before is written. -/
def copyBack (dist : Nat) : Nat → Cmd Unit
  | 0 => pure ()
  | n + 1 => do
    let b ← look (fun s => s.out.read (s.opos - dist))
    putByte b
    copyBack dist n

/-- `ExpandBackref()` once its counts are read: length, second count, line index (R236). -/
def copyRef (len x line : Nat) : Cmd Unit := do
  let s ← readState
  if line = 0 then do
    require (x + (Config.minMatch - 1) ≤ s.opos) .malformed
    copyBack (x + (Config.minMatch - 1)) len
  else
    match s.lh[line - 1]? with
    | none => raise .malformed
    | some l => do
      require (x + len ≤ l.length) .malformed
      putBytes ((l.drop x).take len)

/-- `ExpandBackref()` (R236). -/
def expandBackref : Cmd Unit := do
  let len ← readCnt
  let x ← readCnt
  let lhen ← look State.lhen
  if lhen then do
    let line ← readCnt
    eos
    copyRef (len + Config.minMatch) x line
  else do
    eos
    copyRef (len + Config.minMatch) x 0

/-- The same byte written several times (R241). -/
def putRepeated (b : Byte) : Nat → Cmd Unit
  | 0 => pure ()
  | n + 1 => do
    putByte b
    putRepeated b n

/-- `ExpandRepeat()` once its count is read (R241). -/
def repeatLast (r : Nat) : Cmd Unit := do
  let s ← readState
  require (s.opos ≠ 0) .malformed
  putRepeated (s.out.read (s.opos - 1)) r

/-- `ExpandRepeat()` (R241). -/
def expandRepeat : Cmd Unit := do
  let c ← readCnt
  eos
  repeatLast (c + 4)

/-- The nibbles of a hex run, read and written one by one (R244). -/
def hexLoop (up : HexCase) : Nat → Cmd Unit
  | 0 => pure ()
  | n + 1 => do
    let x ← getBits 4
    eos
    putByte (hexChar x up)
    hexLoop up n

/-- `ExpandHex(up)` (R244). -/
def expandHex (up : HexCase) : Cmd Unit := do
  let n ← readCnt
  eos
  require (n ≠ 0) .malformed
  hexLoop up n

/-- Whether a hyphen follows nibble `q` of a GUID (R247). -/
def hyphenAfter (q : Nat) : Bool := q = 7 || q = 11 || q = 15 || q = 19

/-- What `ExpandGuid` writes for nibble `q` (R247). -/
def putGuidNibble (up : HexCase) (q x : Nat) : Cmd Unit := do
  putByte (hexChar x up)
  if hyphenAfter q then putByte 0x2D else pure ()

/-- The nibbles of a GUID from number `q` on (R247). -/
def guidLoop (up : HexCase) : Nat → Nat → Cmd Unit
  | _, 0 => pure ()
  | q, n + 1 => do
    let x ← getBits 4
    eos
    putGuidNibble up q x
    guidLoop up (q + 1) n

/-- `ExpandGuid(up)` (R247). -/
def expandGuid (up : HexCase) : Cmd Unit := guidLoop up 0 32

/-- The positions of a template, placeholders read, literals written (R250). -/
def templateLoop : ByteStr → Cmd Unit
  | [] => pure ()
  | t :: ts =>
    match letterWidth t with
    | some w => do
      let x ← getBits w
      eos
      putByte (letterByte t x)
      templateLoop ts
    | none => do
      putByte t
      templateLoop ts

/-- `ExpandTemplate()` (R250). -/
def expandTemplate : Cmd Unit := do
  let idx ← readStep 4
  let rem ← readCnt
  eos
  let p ← look State.preset
  match templateOf p idx with
  | none => raise .malformed
  | some t => do
    require (rem ≤ t.length) .malformed
    templateLoop (t.take (t.length - rem))

/-- `ExpandFreq(i)` (R254): the whole entry, however long. R140 gives a frequent substring no greatest length, and one longer
than 67736 bytes outputs more than R321 says a step outputs (log entry 20; DESIGN CHOICE). -/
def expandFreq (i : Fin 6) : Cmd Unit := do
  let p ← look State.preset
  match freqOf p i.val with
  | none => raise .malformed
  | some bs => putBytes bs

/-- The bytes of a binary run, read and written one by one (R257). -/
def binLoop : Nat → Cmd Unit
  | 0 => pure ()
  | n + 1 => do
    let x ← getBits 8
    eos
    putByte (BitVec.ofNat 8 x)
    binLoop n

/-- `ExpandBin()` (R257). -/
def expandBin : Cmd Unit := do
  let n ← readCnt
  eos
  require (n ≠ 0) .malformed
  binLoop n

/-- The token behind ESC, by its sub-code (R232, R295). -/
def expandEsc : Cmd Unit := do
  let k ← readStep 5
  eos
  match k with
  | 0 => expandTemplate
  | 1 => expandHex .lower
  | 2 => expandGuid .lower
  | 3 => expandHex .upper
  | 4 => expandGuid .upper
  | _ => expandBin

/-- The byte a character symbol outputs: an ALPHA letter in upper case while `UPPER` = 1 (R295). -/
def outputByte (set : SymSet) (up : Bool) (c : Byte) : Byte :=
  if set = .alpha ∧ up = true ∧ isLowerLetter c = true then c - 32 else c

/-- `Symbol(s, v)` (R295). -/
def doSymbol (set : SymSet) (v : Fin 28) : Cmd Unit := do
  let s ← readState
  match s.preset.symbol set v with
  | .chr c => putByte (outputByte set s.upper c)
  | .crlf => do
    putByte 0x0D
    putByte 0x0A
  | .freq i => expandFreq i
  | .rpt => expandRepeat
  | .term => raise .endTerm
  | .esc => expandEsc
  | .switch => raise .malformed
  | .unassigned => raise .malformed

/-- One uppercase letter (R297, R300). -/
def shiftedLetter (v : Fin 28) : Cmd Unit := do
  let p ← look State.preset
  match p.symbol .alpha v with
  | .chr c => putByte (c - 32)
  | _ => raise .malformed

/-- `TailAlpha()` (R297). -/
def tailAlpha : Cmd Unit := do
  let s ← readState
  if s.curSet ≠ .alpha then enterSet .alpha
  else if s.upper then setUpper false
  else do
    let v ← readElement readV
    if v = switchIndex then do
      let h ← readElement readH
      require (h = .alpha) .malformed
      setUpper true
    else if v = spaceIndex then update (fun t => { t with curSet := .delta })
    else shiftedLetter v

/-- A delta with magnitude (R305): `PREV_CP` is written before the bytes are. -/
def deltaMagnitude (d : Int) : Cmd Unit := do
  let prev ← look State.prevCp
  require (codepointOk ((prev : Int) + d)) .malformed
  setPrevCp ((prev : Int) + d).toNat
  putBytes (utf8 ((prev : Int) + d).toNat)

/-- What a delta token's head does (R303), with what the escape SWITCH does left to the mode. -/
def deltaEffect (onSwitch : Cmd Unit) (x : DeltaHead) : Cmd Unit :=
  match x with
  | .delta d => deltaMagnitude d
  | .escape e => if e = 1 then onSwitch else putByte (escapeByte e)

/-- `DToken(transient)` (R303, R304). -/
def transientDelta : Cmd Unit := do
  let x ← readDeltaHead
  eos
  deltaEffect (raise .malformed) x

/-- `Tail(h)` (R296). -/
def doTail (h : SetId) : Cmd Unit :=
  match h with
  | .sym => do
    let v ← readElement readV
    doSymbol .sym v
  | .num => do
    enterSet .num
    let v ← readElement readV
    doSymbol .num v
  | .dict => expandBackref
  | .delta => do
    let cur ← look State.curSet
    if cur = .delta then pure () else transientDelta
  | .alpha => tailAlpha

/-- The escape SWITCH in the resting set DELTA (R303, R307). -/
def switchInDelta : Cmd Unit := do
  let h ← readElement readH
  doTail h

/-- `DToken(resting)` (R303). -/
def restingDelta : Cmd Unit := do
  let x ← readDeltaHead
  eos
  deltaEffect switchInDelta x

/-- A token whose head is a vertical code (R292). -/
def verticalToken (set : SymSet) : Cmd Unit := do
  let v ← readElement readV
  if v = switchIndex then do
    let h ← readElement readH
    doTail h
  else doSymbol set v

/-- One turn of the automaton up to its halts (R292): the fetch and the dispatch on `SET`. -/
def fetchAndRun : Cmd Unit := do
  let s ← readState
  require (s.roff < 8 * s.ilen) .endInput
  match restingSymbols s.curSet with
  | none => restingDelta
  | some set => verticalToken set

/-- A turn of the automaton (R291, R292): nothing but the sticky status after a halt; otherwise the body, with `R0` the
bytes it wrote on any exit, and a raised status turned into a halt. -/
def automaton (body : Cmd Unit) : Cmd Unit := fun s =>
  if s.halt = .run then
    match body s with
    | .ok _ s' => .ok () { s' with r0 := BitVec.ofNat 32 (s'.opos - s.opos) }
    | .error e s' => .error e { s' with r0 := BitVec.ofNat 32 (s'.opos - s.opos), halt := Halt.ofStatus e }
  else .error s.halt.status { s with r0 := 0 }

/-- `DEC.STEP` (R292). -/
def execDecStep (s : State) : Host.Outcome State Fault Refusal :=
  modeCommand .dec (automaton fetchAndRun) s

/-- "while `HALT` = 0: do what `DEC.STEP` does" (R320), at most the given number of times. -/
def runLoop : Nat → State → State
  | 0, s => s
  | n + 1, s => if s.halt = .run then runLoop n (stateAfter (automaton fetchAndRun s)) else s

/-- The bound of R320: each step that does not halt reads a bit, and a step that starts past the end halts. -/
def runBound (s : State) : Nat := 8 * s.ilen - s.roff + 1

/-- The body of `DEC.RUN` (R320). -/
def runToHalt : Cmd Unit := fun s =>
  let t := runLoop (runBound s) s
  .error t.halt.status { t with r0 := BitVec.ofNat 32 t.opos }

/-- `DEC.RUN` (R320). -/
def execDecRun (s : State) : Host.Outcome State Fault Refusal :=
  modeCommand .dec runToHalt s

end Sys2Proof.Machine
end

