-- ==== Sys2Proof/Machine/WireCodes.lean ====
section
/-!
DEFINITION. The wire rows of the opcode table that are codes and not tokens: horizontal, vertical, step and count codes.
Each is executed by the unit command that reads exactly one such code, on a stream that holds it at `ROFF`: `PC.RDH`,
`PC.RDV`, `STEP.DEC` with the row's cap, `CNT.DEC` (R163, R164, R184, R186; log entry 9). The marker and the padding are
the parts of `INIT` and `PC.TERM` that write or skip them (R93, R162; log entry 13).
-/

namespace Sys2Proof.Machine

/-- The context in which the state reads and writes wire bits (R95). -/
def wireCtx (s : State) : WireCtx :=
  { preset := s.preset, set := s.curSet, upper := s.upper, lhen := s.lhen, magicLen := s.magicLen,
    padLen := if s.woff % 8 = 0 then 0 else 8 - s.woff % 8, padBit := s.out.bit (s.woff - 1) }

/-- The bits of a form, up to its payload, are consumed: `ROFF` advances by their number. -/
def consumeForm (i : Instr) : Cmd Unit := fun s => consume (encodeHead (wireCtx s) i) s

/-- A code read by its unit command: `ROFF` advances by the code's length, `R0` takes the value (log entry 9). -/
def readForm (i : Instr) (value : Nat) (s : State) : Host.Outcome State Fault Refusal :=
  modeCommand .dec (do
    consumeForm i
    setR0 value) s

/-- The magic marker, as `INIT` handles it: written in ENC, skipped unread in DEC (R93, R371). -/
def execMagic (s : State) : Host.Outcome State Fault Refusal :=
  anyModeCommand marker s

/-- The padding: in ENC `Pad()` writes it (R162). In DEC it is never read: the automaton consumes nothing of it. -/
def execPad (s : State) : Host.Outcome State Fault Refusal :=
  anyModeCommand (do
    let m ← look State.mode
    match m with
    | .enc => padOut
    | .dec => automaton (pure ())) s

/-- `H(ALPHA)`, read by `PC.RDH` (R163). -/
def execHAlpha (s : State) : Host.Outcome State Fault Refusal :=
  readForm .hAlpha 0 s

/-- `H(SYM)`, read by `PC.RDH` (R163). -/
def execHSym (s : State) : Host.Outcome State Fault Refusal :=
  readForm .hSym 1 s

/-- `H(NUM)`, read by `PC.RDH` (R163). -/
def execHNum (s : State) : Host.Outcome State Fault Refusal :=
  readForm .hNum 2 s

/-- `H(DICT)`, read by `PC.RDH` (R163). -/
def execHDict (s : State) : Host.Outcome State Fault Refusal :=
  readForm .hDict 3 s

/-- `H(DELTA)`, read by `PC.RDH` (R163). -/
def execHDelta (s : State) : Host.Outcome State Fault Refusal :=
  readForm .hDelta 4 s

/-- `V(0)`, read by `PC.RDV` (R164). -/
def execV0 (s : State) : Host.Outcome State Fault Refusal :=
  readForm .v0 0 s

/-- `V(1)`, read by `PC.RDV` (R164). -/
def execV1 (s : State) : Host.Outcome State Fault Refusal :=
  readForm .v1 1 s

/-- `V(2)`, read by `PC.RDV` (R164). -/
def execV2 (s : State) : Host.Outcome State Fault Refusal :=
  readForm .v2 2 s

/-- `V(3)`, read by `PC.RDV` (R164). -/
def execV3 (s : State) : Host.Outcome State Fault Refusal :=
  readForm .v3 3 s

/-- `V(4)`, read by `PC.RDV` (R164). -/
def execV4 (s : State) : Host.Outcome State Fault Refusal :=
  readForm .v4 4 s

/-- `V(5)`, read by `PC.RDV` (R164). -/
def execV5 (s : State) : Host.Outcome State Fault Refusal :=
  readForm .v5 5 s

/-- `V(6)`, read by `PC.RDV` (R164). -/
def execV6 (s : State) : Host.Outcome State Fault Refusal :=
  readForm .v6 6 s

/-- `V(7)`, read by `PC.RDV` (R164). -/
def execV7 (s : State) : Host.Outcome State Fault Refusal :=
  readForm .v7 7 s

/-- `V(8)`, read by `PC.RDV` (R164). -/
def execV8 (s : State) : Host.Outcome State Fault Refusal :=
  readForm .v8 8 s

/-- `V(9)`, read by `PC.RDV` (R164). -/
def execV9 (s : State) : Host.Outcome State Fault Refusal :=
  readForm .v9 9 s

/-- `V(10)`, read by `PC.RDV` (R164). -/
def execV10 (s : State) : Host.Outcome State Fault Refusal :=
  readForm .v10 10 s

/-- `V(11)`, read by `PC.RDV` (R164). -/
def execV11 (s : State) : Host.Outcome State Fault Refusal :=
  readForm .v11 11 s

/-- `V(12)`, read by `PC.RDV` (R164). -/
def execV12 (s : State) : Host.Outcome State Fault Refusal :=
  readForm .v12 12 s

/-- `V(13)`, read by `PC.RDV` (R164). -/
def execV13 (s : State) : Host.Outcome State Fault Refusal :=
  readForm .v13 13 s

/-- `V(14)`, read by `PC.RDV` (R164). -/
def execV14 (s : State) : Host.Outcome State Fault Refusal :=
  readForm .v14 14 s

/-- `V(15)`, read by `PC.RDV` (R164). -/
def execV15 (s : State) : Host.Outcome State Fault Refusal :=
  readForm .v15 15 s

/-- `V(16)`, read by `PC.RDV` (R164). -/
def execV16 (s : State) : Host.Outcome State Fault Refusal :=
  readForm .v16 16 s

/-- `V(17)`, read by `PC.RDV` (R164). -/
def execV17 (s : State) : Host.Outcome State Fault Refusal :=
  readForm .v17 17 s

/-- `V(18)`, read by `PC.RDV` (R164). -/
def execV18 (s : State) : Host.Outcome State Fault Refusal :=
  readForm .v18 18 s

/-- `V(19)`, read by `PC.RDV` (R164). -/
def execV19 (s : State) : Host.Outcome State Fault Refusal :=
  readForm .v19 19 s

/-- `V(20)`, read by `PC.RDV` (R164). -/
def execV20 (s : State) : Host.Outcome State Fault Refusal :=
  readForm .v20 20 s

/-- `V(21)`, read by `PC.RDV` (R164). -/
def execV21 (s : State) : Host.Outcome State Fault Refusal :=
  readForm .v21 21 s

/-- `V(22)`, read by `PC.RDV` (R164). -/
def execV22 (s : State) : Host.Outcome State Fault Refusal :=
  readForm .v22 22 s

/-- `V(23)`, read by `PC.RDV` (R164). -/
def execV23 (s : State) : Host.Outcome State Fault Refusal :=
  readForm .v23 23 s

/-- `V(24)`, read by `PC.RDV` (R164). -/
def execV24 (s : State) : Host.Outcome State Fault Refusal :=
  readForm .v24 24 s

/-- `V(25)`, read by `PC.RDV` (R164). -/
def execV25 (s : State) : Host.Outcome State Fault Refusal :=
  readForm .v25 25 s

/-- `V(26)`, read by `PC.RDV` (R164). -/
def execV26 (s : State) : Host.Outcome State Fault Refusal :=
  readForm .v26 26 s

/-- `V(27)`, read by `PC.RDV` (R164). -/
def execV27 (s : State) : Host.Outcome State Fault Refusal :=
  readForm .v27 27 s

/-- `STEP4(0)`, read by `STEP.DEC` with cap 4 (R184). -/
def execStep4_0 (s : State) : Host.Outcome State Fault Refusal :=
  readForm .step4_0 0 s

/-- `STEP4(1)`, read by `STEP.DEC` with cap 4 (R184). -/
def execStep4_1 (s : State) : Host.Outcome State Fault Refusal :=
  readForm .step4_1 1 s

/-- `STEP4(2)`, read by `STEP.DEC` with cap 4 (R184). -/
def execStep4_2 (s : State) : Host.Outcome State Fault Refusal :=
  readForm .step4_2 2 s

/-- `STEP4(3)`, read by `STEP.DEC` with cap 4 (R184). -/
def execStep4_3 (s : State) : Host.Outcome State Fault Refusal :=
  readForm .step4_3 3 s

/-- `STEP4(4)`, read by `STEP.DEC` with cap 4 (R184). -/
def execStep4_4 (s : State) : Host.Outcome State Fault Refusal :=
  readForm .step4_4 4 s

/-- `STEP5(0)`, read by `STEP.DEC` with cap 5 (R184). -/
def execStep5_0 (s : State) : Host.Outcome State Fault Refusal :=
  readForm .step5_0 0 s

/-- `STEP5(1)`, read by `STEP.DEC` with cap 5 (R184). -/
def execStep5_1 (s : State) : Host.Outcome State Fault Refusal :=
  readForm .step5_1 1 s

/-- `STEP5(2)`, read by `STEP.DEC` with cap 5 (R184). -/
def execStep5_2 (s : State) : Host.Outcome State Fault Refusal :=
  readForm .step5_2 2 s

/-- `STEP5(3)`, read by `STEP.DEC` with cap 5 (R184). -/
def execStep5_3 (s : State) : Host.Outcome State Fault Refusal :=
  readForm .step5_3 3 s

/-- `STEP5(4)`, read by `STEP.DEC` with cap 5 (R184). -/
def execStep5_4 (s : State) : Host.Outcome State Fault Refusal :=
  readForm .step5_4 4 s

/-- `STEP5(5)`, read by `STEP.DEC` with cap 5 (R184). -/
def execStep5_5 (s : State) : Host.Outcome State Fault Refusal :=
  readForm .step5_5 5 s

/-- A count of tier 0, read by `CNT.DEC` (R186). -/
def execCntTier0 (f : BitVec 2) (s : State) : Host.Outcome State Fault Refusal :=
  readForm (.cntTier0 f) (countBase 0 + f.toNat) s

/-- A count of tier 1, read by `CNT.DEC` (R186). -/
def execCntTier1 (f : BitVec 4) (s : State) : Host.Outcome State Fault Refusal :=
  readForm (.cntTier1 f) (countBase 1 + f.toNat) s

/-- A count of tier 2, read by `CNT.DEC` (R186). -/
def execCntTier2 (f : BitVec 7) (s : State) : Host.Outcome State Fault Refusal :=
  readForm (.cntTier2 f) (countBase 2 + f.toNat) s

/-- A count of tier 3, read by `CNT.DEC` (R186). -/
def execCntTier3 (f : BitVec 11) (s : State) : Host.Outcome State Fault Refusal :=
  readForm (.cntTier3 f) (countBase 3 + f.toNat) s

/-- A count of tier 4, read by `CNT.DEC` (R186). -/
def execCntTier4 (f : BitVec 16) (s : State) : Host.Outcome State Fault Refusal :=
  readForm (.cntTier4 f) (countBase 4 + f.toNat) s

end Sys2Proof.Machine
end

