-- ==== Sys2Proof/Machine/WireTokens.lean ====
section
/-!
DEFINITION. The wire rows of the opcode table that the decode automaton executes (R2, R94, R290 to R307). The meaning of a
form is what `DEC.STEP` does once it has recognised the form's bits at `ROFF`: it consumes them and executes the form. A
form whose bits go on (a switch, an escape SWITCH, a symbol with fields behind it) reads on from IN. A form where the
automaton does not fetch it is REFUSED (log entry 10).
-/

namespace Sys2Proof.Machine

/-- A form executed by the automaton (log entry 10): the checks of `DEC.STEP`, the form's context, then one turn that
consumes the form's bits and executes it. -/
def tokenForm (i : Instr) (body : Cmd Unit) (s : State) : Host.Outcome State Fault Refusal :=
  modeCommand .dec (do
    let t ← readState
    require (inContext (wireCtx t) i = true) .refused
    automaton (do
      consumeForm i
      body)) s

/-- A bare symbol of the resting set (R292, R295). -/
def bareSymbol (v : Fin 28) : Cmd Unit := do
  let cur ← look State.curSet
  match restingSymbols cur with
  | some set => doSymbol set v
  | none => raise .malformed

/-- A symbol of NUM after its switch or in NUM: `SET <- NUM` whatever the symbol (R150, R296). -/
def inNum (body : Cmd Unit) : Cmd Unit := do
  enterSet .num
  body

/-- A delta token that stands alone: in the resting set DELTA the escape SWITCH goes on, in a transient one it is MALFORMED
(R303, R304). -/
def deltaForm (d : DeltaTok) : Cmd Unit := do
  let cur ← look State.curSet
  deltaEffect (if cur = .delta then switchInDelta else raise .malformed) (deltaTokHead d)

/-- The nibbles of a hex run, each consumed and written (R244). -/
def putNibbles (up : HexCase) : List (BitVec 4) → Cmd Unit
  | [] => pure ()
  | x :: xs => do
    consume (field 4 x.toNat)
    putByte (hexChar x.toNat up)
    putNibbles up xs

/-- A hex run with its digits (R244). -/
def hexForm (up : HexCase) (ns : List (BitVec 4)) : Cmd Unit :=
  inNum (do
    require (ns ≠ []) .malformed
    putNibbles up ns)

/-- The nibbles of a GUID from number `q` on, each consumed and written, hyphens put in (R247). -/
def putGuid (up : HexCase) : Nat → List (BitVec 4) → Cmd Unit
  | _, [] => pure ()
  | q, x :: xs => do
    consume (field 4 x.toNat)
    putGuidNibble up q x.toNat
    putGuid up (q + 1) xs

/-- A GUID with its digits (R247). -/
def guidForm (up : HexCase) (ns : List (BitVec 4)) : Cmd Unit := inNum (putGuid up 0 ns)

/-- The bytes of a binary run, each consumed and written (R257). -/
def putRaw : ByteStr → Cmd Unit
  | [] => pure ()
  | b :: bs => do
    consume (field 8 b.toNat)
    putByte b
    putRaw bs

/-- A binary run with its bytes (R257). -/
def binForm (bs : ByteStr) : Cmd Unit :=
  inNum (do
    require (bs ≠ []) .malformed
    putRaw bs)

/-- The positions of a template with the placeholder values a token carries (R250). Values that are missing would lie past
the end of the stream. -/
def putTemplate : ByteStr → List Nat → Cmd Unit
  | [], _ => pure ()
  | t :: ts, xs =>
    match letterWidth t with
    | none => do
      putByte t
      putTemplate ts xs
    | some w =>
      match xs with
      | [] => raise .endInput
      | x :: xs => do
        consume (field w x)
        putByte (letterByte t x)
        putTemplate ts xs

/-- A template token with its placeholder values (R250). -/
def templateForm (idx : Fin 5) (rem : Nat) (digits : List Nat) : Cmd Unit :=
  inNum (do
    let p ← look State.preset
    match templateOf p idx.val with
    | none => raise .malformed
    | some t => do
      require (rem ≤ t.length) .malformed
      putTemplate (t.take (t.length - rem)) digits)

/-- A frequent substring where its Preset holds it: `SET <- NUM` for a symbol of NUM, unchanged for one of SYM (R253,
R254). -/
def freqForm (i : Fin 6) : Cmd Unit := do
  let p ← look State.preset
  match p.pairOf (.freq i) with
  | (.sym, _) => expandFreq i
  | (.alpha, _) => inNum (expandFreq i)
  | (.num, _) => inNum (expandFreq i)

/-- A delta token of tier 0 (R303, R305). -/
def execDltTier0 (neg : Bool) (m : BitVec 6) (s : State) : Host.Outcome State Fault Refusal :=
  tokenForm (.dltTier0 neg m) (deltaForm (.tier0 neg m)) s

/-- A delta token of tier 1 (R303, R305). -/
def execDltTier1 (neg : Bool) (m : BitVec 12) (s : State) : Host.Outcome State Fault Refusal :=
  tokenForm (.dltTier1 neg m) (deltaForm (.tier1 neg m)) s

/-- A delta token of tier 2 (R303, R305). -/
def execDltTier2 (neg : Bool) (m : BitVec 14) (s : State) : Host.Outcome State Fault Refusal :=
  tokenForm (.dltTier2 neg m) (deltaForm (.tier2 neg m)) s

/-- A delta token of tier 3 (R303, R305). -/
def execDltTier3 (neg : Bool) (m : BitVec 16) (s : State) : Host.Outcome State Fault Refusal :=
  tokenForm (.dltTier3 neg m) (deltaForm (.tier3 neg m)) s

/-- A delta token of tier 4 (R303, R305). -/
def execDltTier4 (neg : Bool) (m : BitVec 21) (s : State) : Host.Outcome State Fault Refusal :=
  tokenForm (.dltTier4 neg m) (deltaForm (.tier4 neg m)) s

/-- The delta escape SPACE (R303, R306). -/
def execDesc0 (s : State) : Host.Outcome State Fault Refusal :=
  tokenForm .desc0 (deltaForm (.escape 0)) s

/-- The delta escape SWITCH (R303, R307). -/
def execDesc1 (s : State) : Host.Outcome State Fault Refusal :=
  tokenForm .desc1 (deltaForm (.escape 1)) s

/-- The delta escape COMMA (R303, R306). -/
def execDesc2 (s : State) : Host.Outcome State Fault Refusal :=
  tokenForm .desc2 (deltaForm (.escape 2)) s

/-- The delta escape PERIOD (R303, R306). -/
def execDesc3 (s : State) : Host.Outcome State Fault Refusal :=
  tokenForm .desc3 (deltaForm (.escape 3)) s

/-- The delta escape NEWLINE (R303, R306). -/
def execDesc4 (s : State) : Host.Outcome State Fault Refusal :=
  tokenForm .desc4 (deltaForm (.escape 4)) s

/-- A bare vertical code: symbol `v` of the resting set (R292, R295). -/
def execSymbol (v : Fin 28) (s : State) : Host.Outcome State Fault Refusal :=
  tokenForm (.symbol v) (bareSymbol v) s

/-- The switch code and a horizontal code: the tail of that set follows (R292, R296). -/
def execSwResting (h : SetId) (s : State) : Host.Outcome State Fault Refusal :=
  tokenForm (.swResting h) (doTail h) s

/-- The escape SWITCH and a horizontal code: the tail of that set follows (R307). -/
def execSwDelta (h : SetId) (s : State) : Host.Outcome State Fault Refusal :=
  tokenForm (.swDelta h) (doTail h) s

/-- One uppercase letter (R300). -/
def execShift (v : Fin 28) (s : State) : Host.Outcome State Fault Refusal :=
  tokenForm (.shift v) (shiftedLetter v) s

/-- All-upper on (R298). -/
def execUpperOn (s : State) : Host.Outcome State Fault Refusal :=
  tokenForm .upperOn (setUpper true) s

/-- All-upper off (R297). -/
def execUpperOff (s : State) : Host.Outcome State Fault Refusal :=
  tokenForm .upperOff (setUpper false) s

/-- The switch to ALPHA from NUM or DELTA (R297). -/
def execToAlpha (s : State) : Host.Outcome State Fault Refusal :=
  tokenForm .toAlpha (enterSet .alpha) s

/-- Entering DELTA (R299). -/
def execEnterd (s : State) : Host.Outcome State Fault Refusal :=
  tokenForm .enterd (update (fun t => { t with curSet := .delta })) s

/-- A switch to SYM and a symbol; `SET` unchanged (R295, R296). -/
def execSymSymbol (v : Fin 28) (s : State) : Host.Outcome State Fault Refusal :=
  tokenForm (.symSymbol v) (doSymbol .sym v) s

/-- A switch to NUM and a symbol (R295, R296). -/
def execNumSymbol (v : Fin 28) (s : State) : Host.Outcome State Fault Refusal :=
  tokenForm (.numSymbol v) (inNum (doSymbol .num v)) s

/-- A back-reference without line history (R236). -/
def execBackref0 (len dist : Nat) (s : State) : Host.Outcome State Fault Refusal :=
  tokenForm (.backref0 len dist) (copyRef len (dist - (Config.minMatch - 1)) 0) s

/-- A back-reference with line history (R236). -/
def execBackref1 (len x line : Nat) (s : State) : Host.Outcome State Fault Refusal :=
  tokenForm (.backref1 len x line) (copyRef len x line) s

/-- A transient switch to DELTA and one delta token (R304). -/
def execUni1 (d : DeltaTok) (s : State) : Host.Outcome State Fault Refusal :=
  tokenForm (.uni1 d) (deltaEffect (raise .malformed) (deltaTokHead d)) s

/-- A repeat run (R241). -/
def execRpt (r : Nat) (s : State) : Host.Outcome State Fault Refusal :=
  tokenForm (.rpt r) (inNum (repeatLast r)) s

/-- The terminator: the automaton halts END_TERM (R295). -/
def execTerm (s : State) : Host.Outcome State Fault Refusal :=
  tokenForm .term (inNum (raise .endTerm)) s

/-- A template token (R250). -/
def execEsc0Template (idx : Fin 5) (rem : Nat) (digits : List Nat) (s : State) : Host.Outcome State Fault Refusal :=
  tokenForm (.esc0Template idx rem digits) (templateForm idx rem digits) s

/-- A hex run, lower case (R244). -/
def execEsc1HexLower (ns : List (BitVec 4)) (s : State) : Host.Outcome State Fault Refusal :=
  tokenForm (.esc1HexLower ns) (hexForm .lower ns) s

/-- A GUID, lower case (R247). -/
def execEsc2GuidLower (ns : List (BitVec 4)) (s : State) : Host.Outcome State Fault Refusal :=
  tokenForm (.esc2GuidLower ns) (guidForm .lower ns) s

/-- A hex run, upper case (R244). -/
def execEsc3HexUpper (ns : List (BitVec 4)) (s : State) : Host.Outcome State Fault Refusal :=
  tokenForm (.esc3HexUpper ns) (hexForm .upper ns) s

/-- A GUID, upper case (R247). -/
def execEsc4GuidUpper (ns : List (BitVec 4)) (s : State) : Host.Outcome State Fault Refusal :=
  tokenForm (.esc4GuidUpper ns) (guidForm .upper ns) s

/-- A binary run (R257). -/
def execEsc5Binary (bs : ByteStr) (s : State) : Host.Outcome State Fault Refusal :=
  tokenForm (.esc5Binary bs) (binForm bs) s

/-- The frequent substring 0 (R254). -/
def execFreq0 (s : State) : Host.Outcome State Fault Refusal :=
  tokenForm .freq0 (freqForm 0) s

/-- The frequent substring 1 (R254). -/
def execFreq1 (s : State) : Host.Outcome State Fault Refusal :=
  tokenForm .freq1 (freqForm 1) s

/-- The frequent substring 2 (R254). -/
def execFreq2 (s : State) : Host.Outcome State Fault Refusal :=
  tokenForm .freq2 (freqForm 2) s

/-- The frequent substring 3 (R254). -/
def execFreq3 (s : State) : Host.Outcome State Fault Refusal :=
  tokenForm .freq3 (freqForm 3) s

/-- The frequent substring 4 (R254). -/
def execFreq4 (s : State) : Host.Outcome State Fault Refusal :=
  tokenForm .freq4 (freqForm 4) s

/-- The frequent substring 5 (R254). -/
def execFreq5 (s : State) : Host.Outcome State Fault Refusal :=
  tokenForm .freq5 (freqForm 5) s

/-- The line feed of SYM (R156, R295). -/
def execCtrlLf (s : State) : Host.Outcome State Fault Refusal :=
  tokenForm .ctrlLf (putByte 0x0A) s

/-- The two bytes of CRLF (R295). -/
def execCtrlCrlf (s : State) : Host.Outcome State Fault Refusal :=
  tokenForm .ctrlCrlf (putBytes [0x0D, 0x0A]) s

/-- The tabulator of SYM (R156, R295). -/
def execCtrlTab (s : State) : Host.Outcome State Fault Refusal :=
  tokenForm .ctrlTab (putByte 0x09) s

/-- The carriage return of SYM (R156, R295). -/
def execCtrlCr (s : State) : Host.Outcome State Fault Refusal :=
  tokenForm .ctrlCr (putByte 0x0D) s

end Sys2Proof.Machine
end

