-- ==== Sys2Proof/Machine/Dispatch.lean ====
section
/-! DEFINITION. The meaning of every instruction: one arm per constructor of `Instr`. -/

namespace Sys2Proof.Machine

def exec (i : Instr) (s : State) : Host.Outcome State Fault Refusal :=
  match i with
  | .init => Sys2Proof.Machine.execInit s
  | .bsAppend => Sys2Proof.Machine.execBsAppend s
  | .bsRdbit => Sys2Proof.Machine.execBsRdbit s
  | .bsRd8 => Sys2Proof.Machine.execBsRd8 s
  | .bsRdint => Sys2Proof.Machine.execBsRdint s
  | .outPutb => Sys2Proof.Machine.execOutPutb s
  | .pcClass => Sys2Proof.Machine.execPcClass s
  | .pcSw => Sys2Proof.Machine.execPcSw s
  | .pcLit => Sys2Proof.Machine.execPcLit s
  | .pcCtrl => Sys2Proof.Machine.execPcCtrl s
  | .pcUpper => Sys2Proof.Machine.execPcUpper s
  | .pcEnterd => Sys2Proof.Machine.execPcEnterd s
  | .pcTerm => Sys2Proof.Machine.execPcTerm s
  | .pcRdh => Sys2Proof.Machine.execPcRdh s
  | .pcRdv => Sys2Proof.Machine.execPcRdv s
  | .stepEnc => Sys2Proof.Machine.execStepEnc s
  | .stepDec => Sys2Proof.Machine.execStepDec s
  | .cntEnc => Sys2Proof.Machine.execCntEnc s
  | .cntDec => Sys2Proof.Machine.execCntDec s
  | .udlEnc => Sys2Proof.Machine.execUdlEnc s
  | .udlDec => Sys2Proof.Machine.execUdlDec s
  | .udlEsc => Sys2Proof.Machine.execUdlEsc s
  | .tkBackref => Sys2Proof.Machine.execTkBackref s
  | .tkRepeat => Sys2Proof.Machine.execTkRepeat s
  | .tkHex => Sys2Proof.Machine.execTkHex s
  | .tkGuid => Sys2Proof.Machine.execTkGuid s
  | .tkTmpl => Sys2Proof.Machine.execTkTmpl s
  | .tkFreq => Sys2Proof.Machine.execTkFreq s
  | .tkBin => Sys2Proof.Machine.execTkBin s
  | .tkUni1 => Sys2Proof.Machine.execTkUni1 s
  | .smFind => Sys2Proof.Machine.execSmFind s
  | .decStep => Sys2Proof.Machine.execDecStep s
  | .decRun => Sys2Proof.Machine.execDecRun s
  | .illegal n => Sys2Proof.Machine.execIllegal n s
  | .magic => Sys2Proof.Machine.execMagic s
  | .hAlpha => Sys2Proof.Machine.execHAlpha s
  | .hSym => Sys2Proof.Machine.execHSym s
  | .hNum => Sys2Proof.Machine.execHNum s
  | .hDict => Sys2Proof.Machine.execHDict s
  | .hDelta => Sys2Proof.Machine.execHDelta s
  | .v0 => Sys2Proof.Machine.execV0 s
  | .v1 => Sys2Proof.Machine.execV1 s
  | .v2 => Sys2Proof.Machine.execV2 s
  | .v3 => Sys2Proof.Machine.execV3 s
  | .v4 => Sys2Proof.Machine.execV4 s
  | .v5 => Sys2Proof.Machine.execV5 s
  | .v6 => Sys2Proof.Machine.execV6 s
  | .v7 => Sys2Proof.Machine.execV7 s
  | .v8 => Sys2Proof.Machine.execV8 s
  | .v9 => Sys2Proof.Machine.execV9 s
  | .v10 => Sys2Proof.Machine.execV10 s
  | .v11 => Sys2Proof.Machine.execV11 s
  | .v12 => Sys2Proof.Machine.execV12 s
  | .v13 => Sys2Proof.Machine.execV13 s
  | .v14 => Sys2Proof.Machine.execV14 s
  | .v15 => Sys2Proof.Machine.execV15 s
  | .v16 => Sys2Proof.Machine.execV16 s
  | .v17 => Sys2Proof.Machine.execV17 s
  | .v18 => Sys2Proof.Machine.execV18 s
  | .v19 => Sys2Proof.Machine.execV19 s
  | .v20 => Sys2Proof.Machine.execV20 s
  | .v21 => Sys2Proof.Machine.execV21 s
  | .v22 => Sys2Proof.Machine.execV22 s
  | .v23 => Sys2Proof.Machine.execV23 s
  | .v24 => Sys2Proof.Machine.execV24 s
  | .v25 => Sys2Proof.Machine.execV25 s
  | .v26 => Sys2Proof.Machine.execV26 s
  | .v27 => Sys2Proof.Machine.execV27 s
  | .step4_0 => Sys2Proof.Machine.execStep4_0 s
  | .step4_1 => Sys2Proof.Machine.execStep4_1 s
  | .step4_2 => Sys2Proof.Machine.execStep4_2 s
  | .step4_3 => Sys2Proof.Machine.execStep4_3 s
  | .step4_4 => Sys2Proof.Machine.execStep4_4 s
  | .step5_0 => Sys2Proof.Machine.execStep5_0 s
  | .step5_1 => Sys2Proof.Machine.execStep5_1 s
  | .step5_2 => Sys2Proof.Machine.execStep5_2 s
  | .step5_3 => Sys2Proof.Machine.execStep5_3 s
  | .step5_4 => Sys2Proof.Machine.execStep5_4 s
  | .step5_5 => Sys2Proof.Machine.execStep5_5 s
  | .cntTier0 f => Sys2Proof.Machine.execCntTier0 f s
  | .cntTier1 f => Sys2Proof.Machine.execCntTier1 f s
  | .cntTier2 f => Sys2Proof.Machine.execCntTier2 f s
  | .cntTier3 f => Sys2Proof.Machine.execCntTier3 f s
  | .cntTier4 f => Sys2Proof.Machine.execCntTier4 f s
  | .dltTier0 neg m => Sys2Proof.Machine.execDltTier0 neg m s
  | .dltTier1 neg m => Sys2Proof.Machine.execDltTier1 neg m s
  | .dltTier2 neg m => Sys2Proof.Machine.execDltTier2 neg m s
  | .dltTier3 neg m => Sys2Proof.Machine.execDltTier3 neg m s
  | .dltTier4 neg m => Sys2Proof.Machine.execDltTier4 neg m s
  | .desc0 => Sys2Proof.Machine.execDesc0 s
  | .desc1 => Sys2Proof.Machine.execDesc1 s
  | .desc2 => Sys2Proof.Machine.execDesc2 s
  | .desc3 => Sys2Proof.Machine.execDesc3 s
  | .desc4 => Sys2Proof.Machine.execDesc4 s
  | .symbol v => Sys2Proof.Machine.execSymbol v s
  | .swResting h => Sys2Proof.Machine.execSwResting h s
  | .swDelta h => Sys2Proof.Machine.execSwDelta h s
  | .shift v => Sys2Proof.Machine.execShift v s
  | .upperOn => Sys2Proof.Machine.execUpperOn s
  | .upperOff => Sys2Proof.Machine.execUpperOff s
  | .toAlpha => Sys2Proof.Machine.execToAlpha s
  | .enterd => Sys2Proof.Machine.execEnterd s
  | .symSymbol v => Sys2Proof.Machine.execSymSymbol v s
  | .numSymbol v => Sys2Proof.Machine.execNumSymbol v s
  | .backref0 len dist => Sys2Proof.Machine.execBackref0 len dist s
  | .backref1 len x line => Sys2Proof.Machine.execBackref1 len x line s
  | .uni1 d => Sys2Proof.Machine.execUni1 d s
  | .rpt r => Sys2Proof.Machine.execRpt r s
  | .term => Sys2Proof.Machine.execTerm s
  | .pad => Sys2Proof.Machine.execPad s
  | .esc0Template idx rem digits => Sys2Proof.Machine.execEsc0Template idx rem digits s
  | .esc1HexLower ns => Sys2Proof.Machine.execEsc1HexLower ns s
  | .esc2GuidLower ns => Sys2Proof.Machine.execEsc2GuidLower ns s
  | .esc3HexUpper ns => Sys2Proof.Machine.execEsc3HexUpper ns s
  | .esc4GuidUpper ns => Sys2Proof.Machine.execEsc4GuidUpper ns s
  | .esc5Binary bs => Sys2Proof.Machine.execEsc5Binary bs s
  | .freq0 => Sys2Proof.Machine.execFreq0 s
  | .freq1 => Sys2Proof.Machine.execFreq1 s
  | .freq2 => Sys2Proof.Machine.execFreq2 s
  | .freq3 => Sys2Proof.Machine.execFreq3 s
  | .freq4 => Sys2Proof.Machine.execFreq4 s
  | .freq5 => Sys2Proof.Machine.execFreq5 s
  | .ctrlLf => Sys2Proof.Machine.execCtrlLf s
  | .ctrlCrlf => Sys2Proof.Machine.execCtrlCrlf s
  | .ctrlTab => Sys2Proof.Machine.execCtrlTab s
  | .ctrlCr => Sys2Proof.Machine.execCtrlCr s

end Sys2Proof.Machine
end

