-- ==== Sys2Proof/Machine/Fetch.lean ====
section
/-!
DEFINITION. How an instruction reaches the block: the host's register writes (R21), the wire bits at `ROFF` (R94), and the
placing of a table word where the next step fetches it (log entry 11).
-/

namespace Sys2Proof.Machine

/-- The host writes `A0` to `A3` and then `CMD`, and the rest of its sequence is left (R21). -/
def State.latch (s : State) (w : HostWrite) (rest : List HostWrite) : State :=
  { s with host := rest, cmd := w.cmd, a0 := w.a0, a1 := w.a1, a2 := w.a2, a3 := w.a3 }

/-- The bits of IN from `ROFF` to its end, `8*ILEN` (R94, R124). -/
def remainingBits (s : State) : BitStr :=
  (List.range (8 * s.ilen - s.roff)).map (fun k => s.inp.bit (s.roff + k))

/-- The wire form that a reader reads at `ROFF`, if the bits that are left hold one whole. -/
def wireForm (r : Reader) (s : State) : Option Instr :=
  match decode r (wireCtx s) (remainingBits s) with
  | .ok (i, _) => some i
  | .error _ => none

/-- The bytes of a table word, the first in bits 7 to 0. -/
def wordBytes : Nat → Nat → ByteStr
  | 0, _ => []
  | n + 1, w => BitVec.ofNat 8 (w % 256) :: wordBytes n (w / 256)

/-- The command that reads a table word of wire bits: `PC.RDV` for a vertical code, else `DEC.STEP`. -/
def wordCommand (nbits w : Nat) : BitVec 8 :=
  match wordReader nbits w with
  | .vertical => 0x28
  | _ => 0x70

/-- A table word placed where the next step fetches it (log entry 11). A host command becomes the host's next register
write, the operand registers keeping their values. Wire bits become the stream of a DEC call at its start, zero bits
following, and the host's next command is the one that reads them. -/
def placeWord (s : State) (nbits w : Nat) : State :=
  if isCommandWord nbits w then
    { s with host := ⟨BitVec.ofNat 8 w, s.a0, s.a1, s.a2, s.a3⟩ :: s.host }
  else
    { s with
      host := ⟨wordCommand nbits w, s.a0, s.a1, s.a2, s.a3⟩ :: s.host
      ready := true, mode := .dec, halt := .run, reos := false, roff := 0, ilen := nbits / 8 + wordTail.length / 8
      curSet := .alpha, upper := false, lhen := false, preset := Preset.default
      inp := Memory.fill [] 0 (wordBytes (nbits / 8) w) }

end Sys2Proof.Machine
end

