-- ==== Sys2Proof/Machine/Step.lean ====
section
/-!
DEFINITION. One step: the host's next register write starts a command (R21), and the block executes it to completion (R20).
With no write left the block waits for the next command (R41) and nothing changes (log entry 1).
-/

namespace Sys2Proof.Machine

/-- One step of the machine. -/
def step (s : State) : Host.Outcome State Fault Refusal :=
  match s.host with
  | [] => .next s
  | w :: rest => exec (decodeCommand w.cmd) (s.latch w rest)

/-- The state with a table word stored where the next step fetches its instruction (see `placeWord`). -/
def State.withFetchWord (s : State) (nbits w : Nat) : State := placeWord s nbits w

end Sys2Proof.Machine
end

