-- ==== Sys2Proof/Safety.lean ====
section
/-!
DEFINITION. The terms in which statements about the block are made: when a command may run, what an append, a byte write
and a read of bits leave behind, the legal mode of each command, and the invariants of the state. The block never stops:
what counts as a safe run is that no byte outside OUT's capacity is written and that the state stays within the ranges
the spec gives it (R27, R29, R71).
-/

namespace Sys2Proof.Machine

/-- A command of ENC mode may run: `READY` = 1, `MODE` = ENC (R347). -/
abbrev State.canEncode (s : State) : Prop := s.ready = true ∧ s.mode = .enc

/-- A command of DEC mode may run: `READY` = 1, `MODE` = DEC (R347). -/
abbrev State.canDecode (s : State) : Prop := s.ready = true ∧ s.mode = .dec

/-- The automaton may take a token, and no padding has been read (R291, R293). -/
abbrev State.running (s : State) : Prop := s.canDecode ∧ s.halt = .run ∧ s.reos = false

/-- An append of `n` bits succeeds (R121). -/
abbrev State.fits (s : State) (n : Nat) : Prop := s.ovf = false ∧ s.woff + n ≤ 8 * s.ocap

/-- Writing `n` plaintext bytes succeeds (R128). -/
abbrev State.room (s : State) (n : Nat) : Prop := s.ovf = false ∧ s.opos + n ≤ s.ocap

/-- The state after a successful append: the bits at `WOFF` on, `WOFF` past them (R121). -/
def State.appended (s : State) (bits : BitStr) : State :=
  { s with out := s.out.putBits s.woff bits, woff := s.woff + bits.length }

/-- The state after a rejected append of `n` bits: `OVF` and `NEED` are set unless `OVF` was, nothing is written (R121,
R343). -/
def State.overflowed (s : State) (n : Nat) : State :=
  if s.ovf then { s with status := .overflow }
  else { s with ovf := true, need := (s.woff + n + 7) / 8, status := .overflow }

/-- The state after a rejected byte: `OVF` and `NEED` are set unless `OVF` was, nothing is written (R128, R343). -/
def State.byteRejected (s : State) : State :=
  if s.ovf then { s with status := .overflow }
  else { s with ovf := true, need := s.ocap + 1, status := .overflow }

/-- The state after bytes written to OUT from `OPOS` on (R128). -/
def State.written (s : State) (bs : ByteStr) : State :=
  { s with out := s.out.fill s.opos bs, opos := s.opos + bs.length }

/-- The `n` bits a reader gets from `ROFF` on: the bits of IN, then padding (R124). -/
def State.nextBits (s : State) (n : Nat) : BitStr :=
  (List.range n).map (fun k => paddedBit s (s.roff + k))

/-- The state after `n` bits are read: `ROFF` past them, `REOS` set if one of them lies at or past `8*ILEN` (R124). -/
def State.afterRead (s : State) (n : Nat) : State :=
  { s with roff := s.roff + n, reos := s.reos || decide (0 < n ∧ 8 * s.ilen < s.roff + n) }

/-- The state after a token of `n` bits that outputs bytes and does nothing else (R292). -/
def State.tokenDone (s : State) (n : Nat) (bs : ByteStr) : State :=
  { s with
    roff := s.roff + n, out := s.out.fill s.opos bs, opos := s.opos + bs.length, r0 := BitVec.ofNat 32 bs.length,
    status := .ok }

/-- The state after `PC.CLASS` answers three numbers (R149). -/
def State.classified (s : State) (set index upper : Nat) : State :=
  { s with
    r0 := BitVec.ofNat 32 set, r1 := BitVec.ofNat 32 index, r2 := BitVec.ofNat 32 upper, status := .ok }

/-- An uppercase ASCII letter, by its code. -/
abbrev uppercaseCode (c : Byte) : Prop := 0x41 ≤ c.toNat ∧ c.toNat ≤ 0x5A

/-- The number of bits of a wire form in the state's context. -/
def State.formLength (s : State) (i : Instr) : Nat := (encode (wireCtx s) i).length

/-- What `EmitSW(h)` appends when a resting set is not the one wanted, else nothing (R154, R233). -/
def switchUnless (s : State) (cur : Resting) (h : SetId) : BitStr :=
  if s.curSet = cur then [] else switchBits s.preset s.curSet h

/-- One agent's stream read by another: the bits one block appended from `e` to `e'` stand in the IN of `d` at its `ROFF`
(R382, R383). -/
def carries (e e' d : State) : Prop :=
  d.roff = e.woff ∧ e'.woff ≤ 8 * d.ilen ∧ ∀ k, e.woff ≤ k → k < e'.woff → d.inp.bit k = e'.out.bit k

/-- The state after a form of NUM that outputs bytes: a token, and NUM is the resting set (R150, R296). -/
def State.numDone (s : State) (i : Instr) (bs : ByteStr) : State :=
  { s.tokenDone (s.formLength i) bs with curSet := .num }

/-- The text of a GUID: its 32 digits, hyphens at offsets 8, 13, 18 and 23 (R245). -/
def guidText (up : HexCase) (ns : List (BitVec 4)) : ByteStr :=
  let digits := ns.map (fun x => hexChar x.toNat up)
  digits.take 8 ++ [0x2D] ++ (digits.drop 8).take 4 ++ [0x2D] ++ (digits.drop 12).take 4 ++ [0x2D] ++
    (digits.drop 16).take 4 ++ [0x2D] ++ digits.drop 20

/-- The text of the first positions of a template with its placeholder values (R248, R250). -/
def templateText : ByteStr → List Nat → ByteStr
  | [], _ => []
  | t :: ts, xs =>
    match letterWidth t, xs with
    | none, xs => t :: templateText ts xs
    | some _, x :: xs => letterByte t x :: templateText ts xs
    | some _, [] => []

/-- The destination of a match of `k` bytes ends at a character boundary or at the end of IN (R275). -/
abbrev endsWhole (s : State) (l k : Nat) : Prop := l + k < s.ilen → isContinuation (s.inp.read (l + k)) = false

/-- A match at cursor `l` that `SM.FIND` may report (R271 to R275, R277): at least `MIN_MATCH` bytes, within the reach of the
counts, inside IN, ending whole; its source lies wholly before the cursor, or in a line of the history. -/
def isCandidate (s : State) (l : Nat) (m : Match) : Prop :=
  Config.minMatch ≤ m.len ∧ m.len ≤ Config.countLimit - 1 + Config.minMatch ∧ l + m.len ≤ s.ilen ∧ endsWhole s l m.len ∧
    ((m.line = 0 ∧ m.len ≤ m.dist ∧ m.dist ≤ l ∧ m.dist ≤ Config.countLimit - 1 + Config.minMatch - 1 ∧
        ∀ x, x < m.len → s.inp.read (l - m.dist + x) = s.inp.read (l + x)) ∨
      (s.lhen = true ∧ 1 ≤ m.line ∧ m.line < Config.countLimit ∧ m.dist < Config.countLimit ∧
        ∃ line, s.lh[m.line - 1]? = some line ∧ m.dist + m.len ≤ line.length ∧
          ∀ x, x < m.len → line.getD (m.dist + x) 0 = s.inp.read (l + x)))

/-- The order of R276: longer first; then the current string before the lines and a recent line before an older one; then
the smaller distance or position. -/
abbrev preferred (a b : Match) : Prop :=
  b.len < a.len ∨ (a.len = b.len ∧ (a.line < b.line ∨ (a.line = b.line ∧ a.dist ≤ b.dist)))

/-- The state after the automaton has halted MALFORMED on a token of which `n` bits were read: nothing is output (R291,
R345). -/
def State.malformedAt (s : State) (n : Nat) : State :=
  { s with roff := s.roff + n, r0 := 0, halt := .malformed, status := .malformed }

/-- A token that outputs `n` bytes overflows part-way (R294). -/
abbrev State.overrun (s : State) (n : Nat) : Prop := s.ovf = false ∧ s.opos ≤ s.ocap ∧ s.ocap < s.opos + n

/-- The state after a token that outputs bytes has overflowed, `n` of its bits read: the bytes that fit stay, `OPOS` counts
them, and the automaton halts OVERFLOW (R67, R294, R343). -/
def State.cutShort (s : State) (n : Nat) (bs : ByteStr) : State :=
  { s with
    roff := s.roff + n, out := s.out.fill s.opos (bs.take (s.ocap - s.opos)), opos := s.ocap, ovf := true,
    need := s.ocap + 1, r0 := BitVec.ofNat 32 (s.ocap - s.opos), halt := .overflow, status := .overflow }

/-- The number of bits of a wire form before its payload of nibbles, bytes or placeholder values. -/
def State.headLength (s : State) (i : Instr) : Nat := (encodeHead (wireCtx s) i).length

/-- One append of a command, and what `SET` and `UPPER` are once it has succeeded. -/
structure BitAppend where
  bits : BitStr
  set : Resting
  upper : Bool
deriving DecidableEq, Repr

/-- A command that makes several appends (R65, R230): each that fits is written and moves `SET` and `UPPER`; the first that
does not ends the command with OVERFLOW and leaves what was done; after the last the result registers and `PREV_CP` get the
values that `fin` gives them. -/
def State.emits (fin : State → State) : List BitAppend → State → State
  | [], s => { fin s with status := .ok }
  | a :: as, s =>
    if s.fits a.bits.length then State.emits fin as { s.appended a.bits with curSet := a.set, upper := a.upper }
    else s.overflowed a.bits.length

/-- The bits of several appends. -/
def appendBits (as : List BitAppend) : BitStr := as.flatMap (fun a => a.bits)

/-- An append that leaves `SET` and `UPPER`. -/
def plainAppend (s : State) (bits : BitStr) : BitAppend := ⟨bits, s.curSet, s.upper⟩

/-- An append after which `SET` is a given one. -/
def appendIn (s : State) (set : Resting) (bits : BitStr) : BitAppend := ⟨bits, set, s.upper⟩

/-- `if SET != h: EmitSW(h)` as appends (R151, R154, R233): none, or the switch, after which `SET` is the set. -/
def switchAppend (s : State) (cur : Resting) (h : SetId) : List BitAppend :=
  if s.curSet = cur then [] else [appendIn s cur (switchBits s.preset s.curSet h)]

/-- `EmitESC(k)` as appends (R232). -/
def escAppends (s : State) (k : Nat) : List BitAppend :=
  [appendIn s .num (switchBits s.preset s.curSet .num), appendIn s .num (s.preset.v 0), appendIn s .num (stepBits k 5)]

/-- The state after one `DEC.STEP`. -/
def State.decStepped (s : State) : State :=
  match exec .decStep s with
  | .next t => t
  | .fault _ => s
  | .refused _ => s

/-- `DEC.STEP` again and again until `ROFF` has reached an offset or the automaton has halted, at most the given number of
times. -/
def State.decodeTo (target : Nat) : Nat → State → State
  | 0, s => s
  | n + 1, s => if s.halt = .run ∧ s.roff < target then State.decodeTo target n s.decStepped else s

/-- The mode in which a command is legal, `none` for a command of both modes and for the wire forms (R90, R347 (c)). -/
def legalMode : Instr → Option Mode
  | .bsAppend => some .enc
  | .bsRdbit => some .dec
  | .bsRd8 => some .dec
  | .bsRdint => some .dec
  | .outPutb => some .dec
  | .pcSw => some .enc
  | .pcLit => some .enc
  | .pcCtrl => some .enc
  | .pcUpper => some .enc
  | .pcEnterd => some .enc
  | .pcTerm => some .enc
  | .pcRdh => some .dec
  | .pcRdv => some .dec
  | .stepEnc => some .enc
  | .stepDec => some .dec
  | .cntEnc => some .enc
  | .cntDec => some .dec
  | .udlEnc => some .enc
  | .udlDec => some .dec
  | .udlEsc => some .enc
  | .tkBackref => some .enc
  | .tkRepeat => some .enc
  | .tkHex => some .enc
  | .tkGuid => some .enc
  | .tkTmpl => some .enc
  | .tkFreq => some .enc
  | .tkBin => some .enc
  | .tkUni1 => some .enc
  | .smFind => some .enc
  | .decStep => some .dec
  | .decRun => some .dec
  | _ => none

/-- The commands that append to the bit stream (R340's list for OVERFLOW, in ENC mode). -/
def appendingCommands : List Instr :=
  [.bsAppend, .pcSw, .pcLit, .pcCtrl, .pcUpper, .pcEnterd, .pcTerm, .stepEnc, .cntEnc, .udlEnc, .udlEsc, .tkBackref,
    .tkRepeat, .tkHex, .tkGuid, .tkTmpl, .tkFreq, .tkBin, .tkUni1]

/-- Every horizontal code is at most 8 bits long, as R140's type says. Every Preset that `INIT` accepts is so (log entry 6):
the lemma `Preset.wf_short`. -/
abbrev horizontalShort (p : Preset) : Prop := ∀ h, (p.h h).length ≤ 8

/-- Each symbol that R141 does not place has one place: RPT in NUM, the line-control symbols in SYM, FREQ(i) in SYM or in
NUM. The default Preset is such a Preset (R145 to R147). -/
abbrev symbolsPlaced (p : Preset) : Prop :=
  (p.placesIn .num .rpt).length = 1 ∧ symPlaced p (.chr 0x0A) = true ∧ symPlaced p .crlf = true ∧
    symPlaced p (.chr 0x09) = true ∧ symPlaced p (.chr 0x0D) = true ∧ ∀ i, freqPlaced p i = true

/-- The memories are in canonical form. -/
structure State.MemoriesCanonical (s : State) : Prop where
  inp : s.inp.wf = true
  out : s.out.wf = true

/-- The registers are within the ranges the spec gives them (R6, R27, R29, R34). -/
structure State.RegistersInRange (s : State) : Prop where
  ilen : s.ilen ≤ Config.maxBytes
  ocap : s.ocap ≤ Config.maxBytes
  magicLen : s.magicLen ≤ 8
  woff : s.woff ≤ 8 * s.ocap
  opos : s.opos ≤ s.ocap
  prevCp : s.prevCp ≤ Config.cpMax

/-- What the sticky flags say of the other registers: `REOS` that the reader is past the end of IN, `OVF` that `NEED` is
above the capacity (R343), a halt for overflow that `OVF` is set. -/
structure State.FlagsConsistent (s : State) : Prop where
  reos : s.reos = true → 8 * s.ilen < s.roff
  ovf : s.ovf = true → s.ocap < s.need
  halt : s.halt = .overflow → s.ovf = true

/-- What the mode and the set say of the other registers: the registers of the other direction keep the value `INIT` gave
them (R41), all-uppercase mode is off in DELTA (R307), a block that is ready holds a well-formed Preset (R371). -/
structure State.ModesConsistent (s : State) : Prop where
  enc : s.mode = .enc → s.roff = 0 ∧ s.opos = 0 ∧ s.reos = false ∧ s.halt = .run
  dec : s.mode = .dec → s.woff = 0
  delta : s.curSet = .delta → s.upper = false
  preset : s.ready = true → s.preset.wf = true

end Sys2Proof.Machine
end

