-- ==== Sys2Proof/Certificates/Slice0/Obligations.lean ====
section
/-!
DEFINITION. The statements for the provers.
-/

open Sys2Proof Sys2Proof.Machine

/-- R21, R20, log entry 1: a step runs the instruction the host's next command number decodes to, on the state with the
host's operands latched; with no command left nothing changes. -/
def Obligations.StepRunsTheHostsNextCommand : Prop :=
  ∀ s : State,
    (∀ w rest, s.host = w :: rest →
      step s = exec (decodeCommand w.cmd)
        { s with host := rest, cmd := w.cmd, a0 := w.a0, a1 := w.a1, a2 := w.a2, a3 := w.a3 }) ∧
    (s.host = [] → step s = .next s)

/-- R90, R96 to R100, R105: a few words written out from the encoding tables decode to what they stand for. -/
def Obligations.SampleWordsDecode : Prop :=
  decode .command (initialCtx Preset.default) [false, true, false, true, false, false, false, false] = .ok (.tkBackref, []) ∧
  decode .horizontal (initialCtx Preset.default) [true, true, false] = .ok (.hDict, []) ∧
  decode .vertical (initialCtx Preset.default) [true, true, true, false, true, true, false] = .ok (.v13, []) ∧
  decode .step4 (initialCtx Preset.default) [true, true, true, false] = .ok (.step4_3, []) ∧
  decode .step5 (initialCtx Preset.default) [true, true, true, true, false] = .ok (.step5_4, []) ∧
  decode .count (initialCtx Preset.default) [true, false, false, false, true, false] = .ok (.cntTier1 2, []) ∧
  decode .delta (initialCtx Preset.default) [false, true, false, false, false, false, false, true] =
    .ok (.dltTier0 true 1, []) ∧
  decode .token (initialCtx Preset.default) [false, false, false, false, false, true, false] = .ok (.enterd, []) ∧
  decode .token (initialCtx Preset.default)
    [false, false, true, true, false, true, false, false, false, true, false, true, false, false, true, false, false] =
    .ok (.backref0 11 12, [])

/-- R92, R94, R290, log entry 10: `DEC.STEP` does what the wire form at `ROFF` does, whenever a whole form stands there. -/
def Obligations.DecStepRunsTheTokenItFetches : Prop :=
  ∀ (s : State) (i : Instr), s.running → wireForm .token s = some i →
    ∃ t, exec .decStep s = .next t ∧ exec i s = .next t

/-- R163, R164, R184, R186, log entry 9: each unit reader does what the code row at `ROFF` does. -/
def Obligations.UnitReadersRunTheCodeTheyRead : Prop :=
  ∀ (s : State) (i : Instr), s.canDecode →
    (wireForm .horizontal s = some i → ∃ t, exec .pcRdh s = .next t ∧ exec i s = .next t) ∧
    (wireForm .vertical s = some i → ∃ t, exec .pcRdv s = .next t ∧ exec i s = .next t) ∧
    (s.a0 = 4 → wireForm .step4 s = some i → ∃ t, exec .stepDec s = .next t ∧ exec i s = .next t) ∧
    (s.a0 = 5 → wireForm .step5 s = some i → ∃ t, exec .stepDec s = .next t ∧ exec i s = .next t) ∧
    (wireForm .count s = some i → ∃ t, exec .cntDec s = .next t ∧ exec i s = .next t)

/-- R94 to R105, R188, R214: the bits of every well-formed instruction decode to that instruction and leave the bits after
them. In DELTA the whole-token reader reads a delta token too. -/
def Obligations.EncodedFormsDecodeToThemselves : Prop :=
  ∀ (c : WireCtx) (i : Instr) (rest : BitStr), c.preset.wf = true → horizontalShort c.preset → wellFormed c i = true →
    decode (readerOf i) c (encode c i ++ rest) = .ok (i, rest) ∧
    (c.set = .delta → readerOf i = .delta → i ≠ .desc1 → decode .token c (encode c i ++ rest) = .ok (i, rest))

/-- R104, R188: whatever a reader of codes or tokens answers, the bits it consumed are the encoding of it: no form has two
spellings. The marker and the padding are skipped unread (R93, R162). -/
def Obligations.DecodedFormsEncodeToTheBitsRead : Prop :=
  ∀ (r : Reader) (c : WireCtx) (bits : BitStr) (i : Instr) (rest : BitStr), r ≠ .marker → r ≠ .padding →
    decode r c bits = .ok (i, rest) → encode c i ++ rest = bits

/-- The state after power-on reset meets the four invariants and is not ready (R41, R370; the other registers' values are
the model's, log entries 2 to 4). -/
def Obligations.ResetMeetsTheInvariants : Prop :=
  State.reset.MemoriesCanonical ∧ State.reset.RegistersInRange ∧ State.reset.FlagsConsistent ∧
    State.reset.ModesConsistent ∧ State.reset.ready = false

/-- Every step keeps both memories in canonical form. -/
def Obligations.StepKeepsMemoriesCanonical : Prop :=
  ∀ s t : State, s.MemoriesCanonical → step s = .next t → t.MemoriesCanonical

/-- R27, R29, R34: every step keeps `WOFF` within `8*OCAP`, `OPOS` within `OCAP`, `PREV_CP` a codepoint, and the call's
parameters within their bounds. -/
def Obligations.StepKeepsRegistersInRange : Prop :=
  ∀ s t : State, s.RegistersInRange → step s = .next t → t.RegistersInRange

/-- R30, R31, R35, R343: every step keeps what `REOS`, `OVF` and a halt for overflow say of `ROFF`, `NEED` and `OVF`. -/
def Obligations.StepKeepsFlagsConsistent : Prop :=
  ∀ s t : State, s.FlagsConsistent → step s = .next t → t.FlagsConsistent

/-- R41, R307, R371: every step keeps the registers of the other direction at their values after `INIT`, all-uppercase mode
off in DELTA, and a well-formed Preset while ready. -/
def Obligations.StepKeepsModesConsistent : Prop :=
  ∀ s t : State, s.ModesConsistent → step s = .next t → t.ModesConsistent

/-- R9, R67, R72: a byte written reads back and no other byte changes; a byte string written stands at its address on. -/
def Obligations.MemoryReadsBackWhatWasWritten : Prop :=
  ∀ (m : Memory) (a : Nat), m.wf = true →
    (∀ v b, (m.write a v).read b = if b = a then v else m.read b) ∧
    (∀ bs b, (m.fill a bs).read b = if a ≤ b ∧ b < a + bs.length then bs.getD (b - a) 0 else m.read b)

/-- R121, R123, R61: the bits of an append stand at `WOFF` on, the bits below are kept, the rest of a byte begun is zero,
and the bytes after it are untouched. -/
def Obligations.AppendedBitsStandInOut : Prop :=
  ∀ (m : Memory) (o : Nat) (bits : BitStr), m.wf = true →
    (∀ k, ∀ h : k < bits.length, (m.putBits o bits).bit (o + k) = bits[k]) ∧
    (∀ k, k < o → (m.putBits o bits).bit k = m.bit k) ∧
    (∀ k, o + bits.length ≤ k → k / 8 < (o + bits.length + 7) / 8 → (o + 7) / 8 ≤ k / 8 →
      (m.putBits o bits).bit k = false) ∧
    (∀ a, a < o / 8 ∨ (o + bits.length + 7) / 8 ≤ a → (m.putBits o bits).read a = m.read a)

/-- R25, R347 (b), (c), R348: before `INIT` every command but `INIT` is refused, and after it a command of the other mode
is; nothing but `STATUS` changes. -/
def Obligations.CommandsOutOfPlaceAreRefused : Prop :=
  ∀ (i : Instr) (s : State), commandNumber i ≠ none → i ≠ .init →
    (s.ready = false → exec i s = .next { s with status := .refused }) ∧
    (∀ m, legalMode i = some m → s.mode ≠ m → exec i s = .next { s with status := .refused })

/-- R91: every command number that R90 does not list is refused and changes no other state. -/
def Obligations.UnlistedNumbersAreRefused : Prop :=
  ∀ (n : BitVec 8) (s : State),
    n ∉ ([0x00, 0x10, 0x11, 0x12, 0x13, 0x14, 0x20, 0x21, 0x22, 0x23, 0x24, 0x25, 0x26, 0x27, 0x28, 0x30, 0x31, 0x32, 0x33,
      0x40, 0x41, 0x42, 0x50, 0x51, 0x52, 0x53, 0x54, 0x55, 0x56, 0x57, 0x60, 0x70, 0x71] : List (BitVec 8)) →
    decodeCommand n = .illegal n ∧ exec (.illegal n) s = .next { s with status := .refused }

/-- R341, R346, R347: whatever ends in RANGE or REFUSED has changed nothing but `STATUS`. -/
def Obligations.RangeAndRefusedChangeOnlyStatus : Prop :=
  ∀ (i : Instr) (s t : State), exec i s = .next t → t.status = .range ∨ t.status = .refused →
    t = { s with status := t.status }

/-- R22, R30, R343: outside `INIT`, once `OVF` is 1 it stays, nothing is written to OUT, no cursor of OUT moves and `NEED`
stays; and `NEED` is written only when `OVF` goes from 0 to 1, with a value above the capacity and status OVERFLOW. -/
def Obligations.OverflowIsStickyAndSetsNeed : Prop :=
  ∀ (i : Instr) (s t : State), i ≠ .init → exec i s = .next t →
    (s.ovf = true →
      t.ovf = true ∧ t.need = s.need ∧ t.out = s.out ∧ t.woff = s.woff ∧ t.opos = s.opos) ∧
    (s.ovf = false →
      (t.ovf = false → t.need = s.need) ∧ (t.ovf = true → t.status = .overflow ∧ t.ocap < t.need))

/-- R27, R29, R38, R66, R71, R120: no byte of OUT at or above `OCAP` is written; outside `INIT` the cursors of OUT never go
back, and what was written below them is kept. -/
def Obligations.OutputGrowsWithinItsCapacity : Prop :=
  ∀ (i : Instr) (s t : State), exec i s = .next t →
    (∀ a, t.ocap ≤ a → t.out.read a = s.out.read a) ∧
    (i ≠ .init → s.MemoriesCanonical →
      s.woff ≤ t.woff ∧ s.opos ≤ t.opos ∧
      (s.mode = .enc → ∀ k, k < s.woff → t.out.bit k = s.out.bit k) ∧
      (s.mode = .dec → ∀ a, a < s.opos ∨ t.opos ≤ a → t.out.read a = s.out.read a))

/-- R31, R35, R291, R320 (log entry 12): after a halt the automaton does nothing but return the halt's status, and only
`INIT` clears a halt or `REOS`. -/
def Obligations.HaltAndEndOfInputAreSticky : Prop :=
  ∀ s : State,
    (s.halt ≠ .run → s.canDecode →
      exec .decStep s = .next { s with r0 := 0, status := s.halt.status } ∧
      exec .decRun s = .next { s with r0 := BitVec.ofNat 32 s.opos, status := s.halt.status }) ∧
    ∀ (i : Instr) (t : State), i ≠ .init → exec i s = .next t →
      (s.halt ≠ .run → t.halt = s.halt) ∧ (s.reos = true → t.reos = true)

/-- R20, R21, R38, R40: no instruction writes the operand registers, `CMD`, IN, the Preset or the line history (nor the
host's remaining commands), and only `INIT` writes the call's parameters and `READY`. -/
def Obligations.HostOwnedStateIsUnchanged : Prop :=
  ∀ (i : Instr) (s t : State), exec i s = .next t →
    (t.host = s.host ∧ t.a0 = s.a0 ∧ t.a1 = s.a1 ∧ t.a2 = s.a2 ∧ t.a3 = s.a3 ∧ t.cmd = s.cmd ∧ t.inp = s.inp ∧
      t.preset = s.preset ∧ t.lh = s.lh) ∧
    (i ≠ .init →
      t.mode = s.mode ∧ t.ilen = s.ilen ∧ t.ocap = s.ocap ∧ t.magicLen = s.magicLen ∧ t.lhen = s.lhen ∧
        t.ready = s.ready)

/-- R20 to R36: what the appending commands leave unchanged, on every status: the registers of the reader and the
automaton, the result registers but the one their rule names, `PREV_CP`, `UPPER` and `SET` but where their rule writes
them, and every byte of OUT but those from `WOFF` up to the new `WOFF`. -/
def Obligations.AppendingCommandsFrame : Prop :=
  ∀ (i : Instr) (s t : State), i ∈ appendingCommands → exec i s = .next t →
    t.roff = s.roff ∧ t.opos = s.opos ∧ t.reos = s.reos ∧ t.halt = s.halt ∧
    t.r1 = s.r1 ∧ t.r2 = s.r2 ∧ t.r3 = s.r3 ∧
    (i ≠ .bsAppend → i ≠ .pcTerm → t.r0 = s.r0) ∧
    (i ≠ .udlEnc → i ≠ .tkUni1 → t.prevCp = s.prevCp) ∧
    (i ∉ [Instr.pcLit, .pcUpper, .pcEnterd] → t.upper = s.upper) ∧
    (i ∈ [Instr.bsAppend, .pcCtrl, .stepEnc, .cntEnc, .udlEnc, .tkBackref, .tkUni1] → t.curSet = s.curSet) ∧
    (∀ a, a < s.woff / 8 ∨ (t.woff + 7) / 8 ≤ a → t.out.read a = s.out.read a)

/-- R20 to R36: what the reading commands and the automaton leave unchanged, on every status: `WOFF`; all of OUT but for
`OUT.PUTB` (which writes one byte, at `OPOS`) and the automaton (which writes from `OPOS` up to the new `OPOS`); the set
state but for the automaton; `PREV_CP` but for the automaton and `UDL.DEC`; `HALT` but for the automaton; the result
registers but those their rules name. -/
def Obligations.ReadingCommandsFrame : Prop :=
  ∀ (i : Instr) (s t : State),
    i ∈ [Instr.bsRdbit, .bsRd8, .bsRdint, .outPutb, .pcRdh, .pcRdv, .stepDec, .cntDec, .udlDec, .decStep, .decRun] →
    exec i s = .next t →
    t.woff = s.woff ∧ t.r3 = s.r3 ∧
    (i ≠ .udlDec → t.r1 = s.r1 ∧ t.r2 = s.r2) ∧
    (i ∉ [Instr.decStep, .decRun] → t.curSet = s.curSet ∧ t.upper = s.upper ∧ t.halt = s.halt) ∧
    (i ∉ [Instr.decStep, .decRun, .udlDec] → t.prevCp = s.prevCp) ∧
    (i ∉ [Instr.decStep, .decRun, .outPutb] → t.out = s.out ∧ t.opos = s.opos ∧ t.ovf = s.ovf ∧ t.need = s.need) ∧
    (i ∈ [Instr.bsRd8, .outPutb] → t.roff = s.roff ∧ t.reos = s.reos) ∧
    (i = .outPutb → ∀ a, a ≠ s.opos → t.out.read a = s.out.read a) ∧
    (∀ a, a < s.opos ∨ t.opos ≤ a → t.out.read a = s.out.read a)

/-- R36, R149, R271: `PC.CLASS` and `SM.FIND` write nothing but their result registers and `STATUS`. -/
def Obligations.QueriesWriteOnlyResults : Prop :=
  ∀ (i : Instr) (s t : State), i = .pcClass ∨ i = .smFind → exec i s = .next t →
    t = { s with r0 := t.r0, r1 := t.r1, r2 := t.r2, r3 := t.r3, status := t.status } ∧ (i = .pcClass → t.r3 = s.r3)

/-- R371, R41, R93: `INIT` checks its operands, then the Preset, and then gives every register of the call its value, writes
the marker in ENC and skips it in DEC. That the check of the Preset refuses what is outside R140's ranges and R248's bound,
not only what fails R141, is the model's choice (log entry 6). -/
def Obligations.InitStartsACall : Prop :=
  ∀ s : State,
    (¬ (s.a0.toNat ≤ 1 ∧ s.a1.toNat ≤ 2 ^ 28 ∧ s.a2.toNat ≤ 2 ^ 28 ∧ s.a3.toNat % 16 ≤ 8 ∧ s.a3.toNat / 32 = 0) →
      exec .init s = .next { s with status := .range }) ∧
    (s.a0.toNat ≤ 1 ∧ s.a1.toNat ≤ 2 ^ 28 ∧ s.a2.toNat ≤ 2 ^ 28 ∧ s.a3.toNat % 16 ≤ 8 ∧ s.a3.toNat / 32 = 0 →
      (s.preset.wf = false → exec .init s = .next { s with status := .refused }) ∧
      (s.preset.wf = true →
        ∀ f : State,
          f = { s with
                ilen := s.a1.toNat, ocap := s.a2.toNat, magicLen := s.a3.toNat % 16, lhen := s.a3.getLsbD 4,
                ready := true, woff := 0, roff := 0, opos := 0, ovf := false, reos := false, halt := .run, need := 0,
                curSet := .alpha, upper := false, prevCp := 0, r0 := 0, r1 := 0, r2 := 0, r3 := 0, status := .ok } →
          (s.a0 = 1 → exec .init s = .next { f with mode := .dec, roff := s.a3.toNat % 16 }) ∧
          (s.a0 = 0 → (s.a3.toNat % 16 ≤ 8 * s.a2.toNat →
              exec .init s = .next (({ f with mode := .enc } : State).appended (List.replicate (s.a3.toNat % 16) true))) ∧
            (8 * s.a2.toNat < s.a3.toNat % 16 →
              exec .init s = .next { f with mode := .enc, ovf := true, need := 1, status := .overflow }))))

/-- R121, R122, R65: `BS.APPEND` appends the n high bits of `A0[7:0]`, all or none, and returns the new `WOFF`. -/
def Obligations.BsAppendAppendsTheHighBits : Prop :=
  ∀ (s : State) (n : Nat) (bits : BitStr), n = s.a1.toNat → bits = (List.range n).map (fun k => s.a0.getLsbD (7 - k)) →
    (¬ s.canEncode → exec .bsAppend s = .next { s with status := .refused }) ∧
    (s.canEncode →
      (8 < n → exec .bsAppend s = .next { s with status := .range }) ∧
      (n ≤ 8 →
        (s.fits n → exec .bsAppend s = .next { s.appended bits with r0 := BitVec.ofNat 32 (s.woff + n), status := .ok }) ∧
        (¬ s.fits n → exec .bsAppend s = .next (s.overflowed n))))

/-- R124 to R127, R61: the readers of one bit, of n bits and of the next 8 bits without consuming them. -/
def Obligations.BitReadersReadInStreamOrder : Prop :=
  ∀ s : State,
    (s.canDecode →
      exec .bsRdbit s = .next { s.afterRead 1 with r0 := BitVec.ofNat 32 (ofBits (s.nextBits 1)), status := .ok } ∧
      exec .bsRd8 s = .next { s with r0 := BitVec.ofNat 32 (ofBits (s.nextBits 8)), status := .ok } ∧
      (s.a0.toNat ≤ 32 →
        exec .bsRdint s =
          .next { s.afterRead s.a0.toNat with r0 := BitVec.ofNat 32 (ofBits (s.nextBits s.a0.toNat)), status := .ok }) ∧
      (32 < s.a0.toNat → exec .bsRdint s = .next { s with status := .range })) ∧
    (¬ s.canDecode →
      exec .bsRdbit s = .next { s with status := .refused } ∧ exec .bsRd8 s = .next { s with status := .refused } ∧
      exec .bsRdint s = .next { s with status := .refused })

/-- R128, R129: `OUT.PUTB` writes one byte at `OPOS`, or none. -/
def Obligations.OutPutbWritesOneByte : Prop :=
  ∀ s : State,
    (¬ s.canDecode → exec .outPutb s = .next { s with status := .refused }) ∧
    (s.canDecode →
      (s.room 1 → exec .outPutb s =
        .next { s with
          out := s.out.write s.opos (s.a0.setWidth 8), opos := s.opos + 1, r0 := BitVec.ofNat 32 (s.opos + 1),
          status := .ok }) ∧
      (¬ s.room 1 → exec .outPutb s = .next s.byteRejected))

/-- R149, with R141: under a well-formed Preset `PC.CLASS` answers the one place of a printable character, its case, and the
place of the space in ALPHA; of LF, TAB and CR their place in SYM if they have just one; 0xFF for any other byte. -/
def Obligations.ClassAnswersThePlaceOfAByte : Prop :=
  ∀ (s : State) (c : Byte), s.ready = true → s.preset.wf = true → c = s.a0.setWidth 8 →
    (∀ set v, s.preset.symbol set v = .chr c → 0x21 ≤ c.toNat → c.toNat ≤ 0x7E → ¬ uppercaseCode c →
      exec .pcClass s = .next (s.classified set.number v.val 0)) ∧
    (∀ v, s.preset.symbol .alpha v = .chr (c + 32) → uppercaseCode c →
      exec .pcClass s = .next (s.classified 0 v.val 1)) ∧
    (c = 0x20 → exec .pcClass s = .next (s.classified 0 1 0)) ∧
    (c = 0x0A ∨ c = 0x09 ∨ c = 0x0D →
      (∀ v, s.preset.placesIn .sym (.chr c) = [v] → exec .pcClass s = .next (s.classified 1 v.val 0)) ∧
      (s.preset.placesIn .sym (.chr c) = [] → exec .pcClass s = .next (s.classified 0xFF 0 0))) ∧
    (c.toNat < 0x20 ∨ 0x7F ≤ c.toNat → c ≠ 0x0A → c ≠ 0x09 → c ≠ 0x0D →
      exec .pcClass s = .next (s.classified 0xFF 0 0))

/-- R163, R164: the readers of one horizontal and one vertical code: whichever code stands at `ROFF` (padding included), it
is consumed and its number returned; 8 bits that start with no code are MALFORMED and stay read. -/
def Obligations.CodeReadersReturnTheCodeAtRoff : Prop :=
  ∀ s : State, s.preset.wf = true →
    (¬ s.canDecode → exec .pcRdv s = .next { s with status := .refused } ∧
      exec .pcRdh s = .next { s with status := .refused }) ∧
    (s.canDecode →
      (∀ v, s.nextBits (s.preset.v v).length = s.preset.v v →
        exec .pcRdv s = .next { s.afterRead (s.preset.v v).length with r0 := BitVec.ofNat 32 v.val, status := .ok }) ∧
      ((∀ v, s.nextBits (s.preset.v v).length ≠ s.preset.v v) →
        exec .pcRdv s = .next { s.afterRead 8 with status := .malformed }) ∧
      (∀ h, (s.preset.h h).length ≤ 8 → s.nextBits (s.preset.h h).length = s.preset.h h →
        exec .pcRdh s =
          .next { s.afterRead (s.preset.h h).length with r0 := BitVec.ofNat 32 h.number.val, status := .ok }) ∧
      ((∀ h, (s.preset.h h).length ≤ 8 → s.nextBits (s.preset.h h).length ≠ s.preset.h h) →
        exec .pcRdh s = .next { s.afterRead 8 with status := .malformed }))

/-- R151, R152, R160, R230: `PC.SW` emits the switch to ALPHA from another resting set, and nothing else; `PC.ENTERD` leaves
all-uppercase mode, emits the shifted space and makes DELTA the resting set, stopping at the first append that does not
fit. -/
def Obligations.SwitchAndEnterdMoveTheRestingSet : Prop :=
  ∀ s : State, s.canEncode →
    (s.a0 = 0 → s.curSet ≠ .alpha →
      (s.fits (switchBits s.preset s.curSet .alpha).length →
        exec .pcSw s = .next { s.appended (switchBits s.preset s.curSet .alpha) with curSet := .alpha, status := .ok }) ∧
      (¬ s.fits (switchBits s.preset s.curSet .alpha).length →
        exec .pcSw s = .next (s.overflowed (switchBits s.preset s.curSet .alpha).length))) ∧
    (s.a0 ≠ 0 ∨ s.curSet = .alpha → exec .pcSw s = .next { s with status := .refused }) ∧
    (s.curSet = .delta → exec .pcEnterd s = .next { s with status := .refused }) ∧
    (∀ parts, s.curSet ≠ .delta →
      parts = switchAppend s .alpha .alpha ++ (if s.upper then [⟨s.preset.v 0 ++ s.preset.h .alpha, .alpha, false⟩] else []) ++
        [⟨s.preset.v 0 ++ s.preset.h .alpha ++ s.preset.v 1, .delta, false⟩] →
      exec .pcEnterd s = .next (s.emits id parts) ∧
      (s.fits (appendBits parts).length →
        exec .pcEnterd s = .next { s.appended (appendBits parts) with curSet := .delta, upper := false, status := .ok }))

/-- R154, R155, R230: what `PC.LIT` appends for each kind of printable character in each set, and how it moves `SET` and
`UPPER`: whole if it fits, else up to the first append that does not fit. -/
def Obligations.LiteralAppendsItsCode : Prop :=
  ∀ (s : State) (c : Byte), s.canEncode → s.preset.wf = true → c = s.a0.setWidth 8 →
    (c.toNat < 0x20 ∨ 0x7E < c.toNat → exec .pcLit s = .next { s with status := .range }) ∧
    (∀ v parts, uppercaseCode c → s.preset.symbol .alpha v = .chr (c + 32) →
      parts = switchAppend s .alpha .alpha ++
        (if s.upper then [] else [appendIn s .alpha (s.preset.v 0 ++ s.preset.h .alpha)]) ++
        [appendIn s .alpha (s.preset.v v)] →
      exec .pcLit s = .next (s.emits id parts) ∧
      (s.fits (appendBits parts).length →
        exec .pcLit s = .next { s.appended (appendBits parts) with curSet := .alpha, status := .ok })) ∧
    (∀ v parts, 0x61 ≤ c.toNat → c.toNat ≤ 0x7A → s.preset.symbol .alpha v = .chr c →
      parts = switchAppend s .alpha .alpha ++ (if s.upper then [⟨s.preset.v 0 ++ s.preset.h .alpha, .alpha, false⟩] else []) ++
        [⟨s.preset.v v, .alpha, false⟩] →
      exec .pcLit s = .next (s.emits id parts) ∧
      (s.fits (appendBits parts).length →
        exec .pcLit s = .next { s.appended (appendBits parts) with curSet := .alpha, upper := false, status := .ok })) ∧
    (∀ v, c = 0x20 → s.curSet = .num → s.preset.symbol .num v = .chr 0x20 →
      (s.fits (s.preset.v v).length → exec .pcLit s = .next { s.appended (s.preset.v v) with status := .ok }) ∧
      (¬ s.fits (s.preset.v v).length → exec .pcLit s = .next (s.overflowed (s.preset.v v).length))) ∧
    (∀ parts, c = 0x20 → (s.curSet = .alpha ∨ (s.curSet = .num ∧ s.preset.placesIn .num (.chr 0x20) = [])) →
      parts = switchAppend s .alpha .alpha ++ [appendIn s .alpha (s.preset.v 1)] →
      exec .pcLit s = .next (s.emits id parts) ∧
      (s.fits (appendBits parts).length →
        exec .pcLit s = .next { s.appended (appendBits parts) with curSet := .alpha, status := .ok })) ∧
    (∀ e, s.curSet = .delta → (c = 0x20 ∧ e = 0) ∨ (c = 0x2C ∧ e = 2) ∨ (c = 0x2E ∧ e = 3) →
      (s.fits (stepBits 5 5 ++ stepBits e 4).length →
        exec .pcLit s = .next { s.appended (stepBits 5 5 ++ stepBits e 4) with status := .ok }) ∧
      (¬ s.fits (stepBits 5 5 ++ stepBits e 4).length →
        exec .pcLit s = .next (s.overflowed (stepBits 5 5 ++ stepBits e 4).length))) ∧
    (¬ (s.curSet = .delta ∧ (c = 0x2C ∨ c = 0x2E)) → 0x21 ≤ c.toNat → c.toNat ≤ 0x7E → ¬ uppercaseCode c →
      (∀ v parts, s.preset.symbol .sym v = .chr c →
        parts = [plainAppend s (switchBits s.preset s.curSet .sym), plainAppend s (s.preset.v v)] →
        exec .pcLit s = .next (s.emits id parts) ∧
        (s.fits (appendBits parts).length →
          exec .pcLit s = .next { s.appended (appendBits parts) with status := .ok })) ∧
      (∀ v parts, s.preset.symbol .num v = .chr c →
        parts = switchAppend s .num .num ++ [appendIn s .num (s.preset.v v)] →
        exec .pcLit s = .next (s.emits id parts) ∧
        (s.fits (appendBits parts).length →
          exec .pcLit s = .next { s.appended (appendBits parts) with curSet := .num, status := .ok })))

/-- R156, R230: `PC.CTRL` appends the switch to SYM and the code of the line-control symbol, up to the first append that does
not fit; LF in DELTA is the escape NEWLINE. Where SYM holds the symbol nowhere or more than once it still appends the switch
and some vertical code (log entry 7): it ends OK wherever the switch and the longest code there can be, 8 bits, fit. -/
def Obligations.LineControlAppendsItsCode : Prop :=
  ∀ s : State, s.canEncode →
    (3 < s.a0.toNat → exec .pcCtrl s = .next { s with status := .range }) ∧
    (s.a0 = 0 → s.curSet = .delta →
      (s.fits 9 → exec .pcCtrl s = .next { s.appended (stepBits 5 5 ++ stepBits 4 4) with status := .ok }) ∧
      (¬ s.fits 9 → exec .pcCtrl s = .next (s.overflowed 9))) ∧
    (∀ v parts, ¬ (s.a0 = 0 ∧ s.curSet = .delta) →
      (s.a0 = 0 ∧ s.preset.placesIn .sym (.chr 0x0A) = [v]) ∨ (s.a0 = 1 ∧ s.preset.placesIn .sym .crlf = [v]) ∨
        (s.a0 = 2 ∧ s.preset.placesIn .sym (.chr 0x09) = [v]) ∨ (s.a0 = 3 ∧ s.preset.placesIn .sym (.chr 0x0D) = [v]) →
      parts = [plainAppend s (switchBits s.preset s.curSet .sym), plainAppend s (s.preset.v v)] →
      exec .pcCtrl s = .next (s.emits id parts) ∧
      (s.fits (appendBits parts).length →
        exec .pcCtrl s = .next { s.appended (appendBits parts) with status := .ok })) ∧
    (¬ (s.a0 = 0 ∧ s.curSet = .delta) → s.a0.toNat ≤ 3 →
      (∃ v, exec .pcCtrl s =
        .next (s.emits id [plainAppend s (switchBits s.preset s.curSet .sym), plainAppend s (s.preset.v v)])) ∧
      (s.preset.wf = true → s.fits ((switchBits s.preset s.curSet .sym).length + 8) →
        ∃ v, exec .pcCtrl s =
          .next { s.appended (switchBits s.preset s.curSet .sym ++ s.preset.v v) with status := .ok }))

/-- R158, R159, R230, R348: all-uppercase mode on and off; the test of `A0` comes first; `UPPER` is written only after both
appends. -/
def Obligations.UpperCommandTogglesTheMode : Prop :=
  ∀ s : State, s.canEncode →
    (1 < s.a0.toNat → exec .pcUpper s = .next { s with status := .range }) ∧
    (s.a0 = 1 → s.upper = true → exec .pcUpper s = .next { s with status := .refused }) ∧
    (s.a0 = 0 → s.upper = false → exec .pcUpper s = .next { s with status := .refused }) ∧
    (∀ parts, s.a0 = 1 → s.upper = false →
      parts = switchAppend s .alpha .alpha ++
        [⟨s.preset.v 0 ++ s.preset.h .alpha ++ s.preset.v 0 ++ s.preset.h .alpha, .alpha, true⟩] →
      exec .pcUpper s = .next (s.emits id parts) ∧
      (s.fits (appendBits parts).length →
        exec .pcUpper s = .next { s.appended (appendBits parts) with curSet := .alpha, upper := true, status := .ok })) ∧
    (∀ parts, s.a0 = 0 → s.upper = true →
      parts = switchAppend s .alpha .alpha ++ [⟨s.preset.v 0 ++ s.preset.h .alpha, .alpha, false⟩] →
      exec .pcUpper s = .next (s.emits id parts) ∧
      (s.fits (appendBits parts).length →
        exec .pcUpper s = .next { s.appended (appendBits parts) with curSet := .alpha, upper := false, status := .ok }))

/-- R161, R162, R230: `PC.TERM` appends the terminator of NUM and repeats its last bit to the byte boundary; `R0` is the
length in bytes, written only if all of it fits, and NUM is the resting set. -/
def Obligations.TerminatorPadsToTheByte : Prop :=
  ∀ (s : State) (v : Fin 28) (body : List BitAppend) (pad : BitStr) (n : Nat), s.canEncode → s.preset.wf = true →
    s.out.wf = true → s.preset.symbol .num v = .term →
    body = switchAppend s .num .num ++ [appendIn s .num (s.preset.v v)] →
    n = (8 - (s.woff + (appendBits body).length) % 8) % 8 → pad = List.replicate n ((s.preset.v v).getLastD false) →
    exec .pcTerm s =
      .next (s.emits (fun t => { t with r0 := BitVec.ofNat 32 ((t.woff + 7) / 8) })
        (body ++ (if n = 0 then [] else [appendIn s .num pad]))) ∧
    (s.fits ((appendBits body).length + n) →
      exec .pcTerm s =
        .next { s.appended (appendBits body ++ pad) with
          curSet := .num, r0 := BitVec.ofNat 32 ((s.woff + (appendBits body).length + n) / 8), status := .ok })

/-- R182, R183, R185, R187: the step code and the count code of an operand, appended whole or not at all; the count's bits
are its tier's step and field. -/
def Obligations.StepAndCountCodesAppended : Prop :=
  ∀ s : State,
    (¬ s.canEncode → exec .stepEnc s = .next { s with status := .refused } ∧
      exec .cntEnc s = .next { s with status := .refused }) ∧
    (s.canEncode →
      (¬ (1 ≤ s.a1.toNat ∧ s.a1.toNat ≤ 8 ∧ s.a0.toNat ≤ s.a1.toNat) →
        exec .stepEnc s = .next { s with status := .range }) ∧
      (∀ bits, 1 ≤ s.a1.toNat → s.a1.toNat ≤ 8 → s.a0.toNat ≤ s.a1.toNat →
        bits = List.replicate s.a0.toNat true ++ (if s.a0 = s.a1 then [] else [false]) →
        (s.fits bits.length → exec .stepEnc s = .next { s.appended bits with status := .ok }) ∧
        (¬ s.fits bits.length → exec .stepEnc s = .next (s.overflowed bits.length))) ∧
      (67732 ≤ s.a0.toNat → exec .cntEnc s = .next { s with status := .range }) ∧
      (∀ i bits, i ≤ 4 → countBase i ≤ s.a0.toNat → s.a0.toNat < countBase i + 2 ^ countWidth i →
        bits = stepBits i 4 ++ field (countWidth i) (s.a0.toNat - countBase i) →
        (s.fits bits.length → exec .cntEnc s = .next { s.appended bits with status := .ok }) ∧
        (¬ s.fits bits.length → exec .cntEnc s = .next (s.overflowed bits.length))))

/-- R182, R184, R186, R188: the step code and the count code at `ROFF` (padding included) are consumed and their value
returned; some step code and exactly one count code stand there. -/
def Obligations.StepAndCountCodesRead : Prop :=
  ∀ s : State,
    (¬ s.canDecode → exec .stepDec s = .next { s with status := .refused } ∧
      exec .cntDec s = .next { s with status := .refused }) ∧
    (s.canDecode →
      (¬ (1 ≤ s.a0.toNat ∧ s.a0.toNat ≤ 8) → exec .stepDec s = .next { s with status := .range }) ∧
      (∀ i code, s.a0.toNat ≤ 8 → 1 ≤ s.a0.toNat → i ≤ s.a0.toNat → code = stepBits i s.a0.toNat →
        s.nextBits code.length = code →
        exec .stepDec s = .next { s.afterRead code.length with r0 := BitVec.ofNat 32 i, status := .ok }) ∧
      (1 ≤ s.a0.toNat → s.a0.toNat ≤ 8 →
        ∃ i, i ≤ s.a0.toNat ∧ s.nextBits (stepBits i s.a0.toNat).length = stepBits i s.a0.toNat) ∧
      (∃ v, (v < 67732 ∧ s.nextBits (cntBits v).length = cntBits v) ∧
        ∀ w, w < 67732 → s.nextBits (cntBits w).length = cntBits w → w = v) ∧
      (∀ v, v < 67732 → s.nextBits (cntBits v).length = cntBits v →
        exec .cntDec s = .next { s.afterRead (cntBits v).length with r0 := BitVec.ofNat 32 v, status := .ok }))

/-- R205, R203, R211: `UDL.ENC` appends the delta token of a codepoint in DELTA and makes it the previous codepoint, the
latter only if the append succeeded. -/
def Obligations.UdlEncAppendsTheDelta : Prop :=
  ∀ s : State,
    (¬ s.canEncode → exec .udlEnc s = .next { s with status := .refused }) ∧
    (s.canEncode →
      (s.curSet ≠ .delta → exec .udlEnc s = .next { s with status := .refused }) ∧
      (s.curSet = .delta →
        (s.a0.toNat < 0x80 ∨ 0x10FFFF < s.a0.toNat → exec .udlEnc s = .next { s with status := .range }) ∧
        (∀ (d : Int) i bits, 0x80 ≤ s.a0.toNat → s.a0.toNat ≤ 0x10FFFF → d = (s.a0.toNat : Int) - s.prevCp →
          i ≤ 4 → deltaBase i ≤ d.natAbs → d.natAbs < deltaBase i + 2 ^ deltaWidth i →
          bits = stepBits i 5 ++ [decide (d < 0)] ++ field (deltaWidth i) (d.natAbs - deltaBase i) →
          (s.fits bits.length →
            exec .udlEnc s = .next { s.appended bits with prevCp := s.a0.toNat, status := .ok }) ∧
          (¬ s.fits bits.length → exec .udlEnc s = .next (s.overflowed bits.length)))))

/-- R206 to R209: `UDL.DEC` reads the head of one delta token (padding included; one always stands there): an escape
returns its number and byte, a magnitude moves `PREV_CP` and returns the difference and the codepoint, or is MALFORMED and
moves nothing but `ROFF`. -/
def Obligations.UdlDecReadsOneHead : Prop :=
  ∀ s : State,
    (¬ s.canDecode → exec .udlDec s = .next { s with status := .refused }) ∧
    (s.canDecode →
    (∃ d, s.nextBits (deltaTokBits d).length = deltaTokBits d) ∧
    (∀ e code, e ≤ 4 → code = stepBits 5 5 ++ stepBits e 4 → s.nextBits code.length = code →
      exec .udlDec s =
        .next { s.afterRead code.length with
          r0 := 1, r1 := BitVec.ofNat 32 e, r2 := ([0x20, 0, 0x2C, 0x2E, 0x0A] : List Word).getD e 0, status := .ok }) ∧
    (∀ i neg f code (d : Int), i ≤ 4 → f < 2 ^ deltaWidth i →
      code = stepBits i 5 ++ [neg] ++ field (deltaWidth i) f → s.nextBits code.length = code →
      d = (if neg then -1 else 1) * ((deltaBase i : Int) + f) →
      (0x80 ≤ s.prevCp + d → s.prevCp + d ≤ 0x10FFFF →
        exec .udlDec s =
          .next { s.afterRead code.length with
            prevCp := (s.prevCp + d).toNat, r0 := 0, r1 := BitVec.ofInt 32 d,
            r2 := BitVec.ofNat 32 (s.prevCp + d).toNat, status := .ok }) ∧
      (s.prevCp + d < 0x80 ∨ 0x10FFFF < s.prevCp + d →
        exec .udlDec s = .next { s.afterRead code.length with status := .malformed })))

/-- R210: `UDL.ESC` appends an escape in DELTA; the escape SWITCH goes with the switch to ALPHA only. -/
def Obligations.UdlEscAppendsTheEscape : Prop :=
  ∀ (s : State) (bits sw : BitStr), bits = stepBits 5 5 ++ stepBits s.a0.toNat 4 → sw = bits ++ s.preset.h .alpha →
    (¬ s.canEncode → exec .udlEsc s = .next { s with status := .refused }) ∧
    (s.canEncode →
      (s.curSet ≠ .delta → exec .udlEsc s = .next { s with status := .refused }) ∧
      (s.curSet = .delta →
        (4 < s.a0.toNat → exec .udlEsc s = .next { s with status := .range }) ∧
        (s.a0 = 1 → s.a1 ≠ 0 → exec .udlEsc s = .next { s with status := .refused }) ∧
        (s.a0 = 1 → s.a1 = 0 →
          (s.fits sw.length → exec .udlEsc s = .next { s.appended sw with curSet := .alpha, status := .ok }) ∧
          (¬ s.fits sw.length → exec .udlEsc s = .next (s.overflowed sw.length))) ∧
        (s.a0 ≠ 1 → s.a0.toNat ≤ 4 →
          (s.fits bits.length → exec .udlEsc s = .next { s.appended bits with status := .ok }) ∧
          (¬ s.fits bits.length → exec .udlEsc s = .next (s.overflowed bits.length)))))

/-- R235, R230: `TK.BACKREF` checks its operands and appends the switch to DICT, the two counts, and with line history the
line index, up to the first append that does not fit; `SET`, `UPPER` and `PREV_CP` are unchanged. -/
def Obligations.BackrefCommandAppendsItsCounts : Prop :=
  ∀ (s : State) (len dist line x : Nat) (parts : List BitAppend), s.canEncode → len = s.a0.toNat → dist = s.a1.toNat →
    line = s.a2.toNat →
    (len < 5 ∨ 67732 ≤ len - 5 → exec .tkBackref s = .next { s with status := .range }) ∧
    (s.lhen = false ∨ line = 0 → dist < 4 ∨ 67732 ≤ dist - 4 → exec .tkBackref s = .next { s with status := .range }) ∧
    (s.lhen = true → 1 ≤ line →
      s.lh.length < line ∨ 67732 ≤ dist ∨ 67732 ≤ line ∨ ((s.lh.getD (line - 1) []).length < dist + len) →
      exec .tkBackref s = .next { s with status := .range }) ∧
    (5 ≤ len → len - 5 < 67732 →
      parts = [plainAppend s (switchBits s.preset s.curSet .dict), plainAppend s (cntBits (len - 5)),
        plainAppend s (cntBits x)] ++ (if s.lhen then [plainAppend s (cntBits line)] else []) →
      ((s.lhen = false ∨ line = 0) ∧ 4 ≤ dist ∧ dist - 4 < 67732 ∧ x = dist - 4) ∨
        (s.lhen = true ∧ 1 ≤ line ∧ line ≤ s.lh.length ∧ line < 67732 ∧ dist < 67732 ∧
          dist + len ≤ (s.lh.getD (line - 1) []).length ∧ x = dist) →
      exec .tkBackref s = .next (s.emits id parts) ∧
      (s.fits (appendBits parts).length →
        exec .tkBackref s = .next { s.appended (appendBits parts) with status := .ok }))

/-- R240, R253, R230: `TK.REPEAT` and `TK.FREQ` append their symbol where the Preset has it (its one place), the first with
the count beyond 4, up to the first append that does not fit; a symbol of NUM makes NUM the resting set. Where NUM holds RPT
nowhere or more than once `TK.REPEAT` still appends some vertical code (log entry 7): it ends OK wherever the longest code
there can be, 8 bits, fits. -/
def Obligations.RepeatAndFrequentCommandsAppendTheirSymbol : Prop :=
  ∀ s : State, s.canEncode →
    (s.a0.toNat < 4 ∨ 67732 ≤ s.a0.toNat - 4 → exec .tkRepeat s = .next { s with status := .range }) ∧
    (∀ v parts, s.preset.placesIn .num .rpt = [v] → 4 ≤ s.a0.toNat → s.a0.toNat - 4 < 67732 →
      parts = switchAppend s .num .num ++
        [appendIn s .num (s.preset.v v), appendIn s .num (cntBits (s.a0.toNat - 4))] →
      exec .tkRepeat s = .next (s.emits id parts) ∧
      (s.fits (appendBits parts).length →
        exec .tkRepeat s = .next { s.appended (appendBits parts) with curSet := .num, status := .ok })) ∧
    (4 ≤ s.a0.toNat → s.a0.toNat - 4 < 67732 →
      (∃ v, exec .tkRepeat s =
        .next (s.emits id (switchAppend s .num .num ++
          [appendIn s .num (s.preset.v v), appendIn s .num (cntBits (s.a0.toNat - 4))]))) ∧
      (s.preset.wf = true →
        s.fits ((switchUnless s .num .num).length + 8 + (cntBits (s.a0.toNat - 4)).length) →
        ∃ v, exec .tkRepeat s =
          .next { s.appended (switchUnless s .num .num ++ s.preset.v v ++ cntBits (s.a0.toNat - 4)) with
            curSet := .num, status := .ok })) ∧
    (5 < s.a0.toNat → exec .tkFreq s = .next { s with status := .range }) ∧
    (∀ i : Fin 6, s.a0.toNat = i.val →
      (s.preset.freq[i] = none → exec .tkFreq s = .next { s with status := .range }) ∧
      (s.preset.freq[i] ≠ none →
        (∀ v parts, s.preset.places (.freq i) = [(.sym, v)] →
          parts = [plainAppend s (switchBits s.preset s.curSet .sym), plainAppend s (s.preset.v v)] →
          exec .tkFreq s = .next (s.emits id parts) ∧
          (s.fits (appendBits parts).length →
            exec .tkFreq s = .next { s.appended (appendBits parts) with status := .ok })) ∧
        (∀ v parts, s.preset.places (.freq i) = [(.num, v)] →
          parts = switchAppend s .num .num ++ [appendIn s .num (s.preset.v v)] →
          exec .tkFreq s = .next (s.emits id parts) ∧
          (s.fits (appendBits parts).length →
            exec .tkFreq s = .next { s.appended (appendBits parts) with curSet := .num, status := .ok }))))

/-- R230 to R234, R243, R245, R246: `TK.HEX` and `TK.GUID` accept exactly runs of IN of their shape and one case, and append
the escape, the count (hex) and the digits, four bits each, up to the first append that does not fit; NUM becomes the resting
set. -/
def Obligations.HexAndGuidCommandsPackTheirDigits : Prop :=
  ∀ (s : State) (pos n : Nat) (up : HexCase), s.canEncode → pos = s.a0.toNat → n = s.a1.toNat →
    (s.a2.toNat = (match up with | .lower => 0 | .upper => 1) →
      (n < 1 ∨ 67732 ≤ n ∨ s.ilen < pos + n ∨ (∃ k, k < n ∧ hexVal (s.inp.read (pos + k)) up = none) →
        exec .tkHex s = .next { s with status := .range }) ∧
      (∀ (ns : List (BitVec 4)) parts, 1 ≤ n → n < 67732 → pos + n ≤ s.ilen →
        s.inp.slice pos n = ns.map (fun x => hexChar x.toNat up) →
        parts = escAppends s (match up with | .lower => 1 | .upper => 3) ++
          [appendIn s .num (cntBits n), appendIn s .num (nibbleBits ns)] →
        exec .tkHex s = .next (s.emits id parts) ∧
        (s.fits (appendBits parts).length →
          exec .tkHex s = .next { s.appended (appendBits parts) with curSet := .num, status := .ok }))) ∧
    (1 < s.a2.toNat → exec .tkHex s = .next { s with status := .range }) ∧
    (s.a1.toNat = (match up with | .lower => 0 | .upper => 1) →
      (s.ilen < pos + 36 ∨ (∃ k, k < 36 ∧ (k = 8 ∨ k = 13 ∨ k = 18 ∨ k = 23) ∧ s.inp.read (pos + k) ≠ 0x2D) ∨
          (∃ k, k < 36 ∧ k ≠ 8 ∧ k ≠ 13 ∧ k ≠ 18 ∧ k ≠ 23 ∧ hexVal (s.inp.read (pos + k)) up = none) →
        exec .tkGuid s = .next { s with status := .range }) ∧
      (∀ (ns : List (BitVec 4)) parts, ns.length = 32 → pos + 36 ≤ s.ilen → s.inp.slice pos 36 = guidText up ns →
        parts = escAppends s (match up with | .lower => 2 | .upper => 4) ++ [appendIn s .num (nibbleBits ns)] →
        exec .tkGuid s = .next (s.emits id parts) ∧
        (s.fits (appendBits parts).length →
          exec .tkGuid s = .next { s.appended (appendBits parts) with curSet := .num, status := .ok }))) ∧
    (1 < s.a1.toNat → exec .tkGuid s = .next { s with status := .range })

/-- R187, R230, R248, R249: `TK.TMPL` accepts a run of IN that matches the first positions of a template, and appends the
escape, the index, the unmatched length and the placeholder values, up to the first append that does not fit; NUM becomes the
resting set. An unmatched length that no count holds is RANGE (R187); no template of a well-formed Preset has one. -/
def Obligations.TemplateCommandPacksItsPlaceholders : Prop :=
  ∀ (s : State) (pos m : Nat), s.canEncode → pos = s.a1.toNat → m = s.a2.toNat →
    (4 < s.a0.toNat → exec .tkTmpl s = .next { s with status := .range }) ∧
    (∀ idx : Fin 5, s.a0.toNat = idx.val →
      (s.preset.tmpl[idx] = none → exec .tkTmpl s = .next { s with status := .range }) ∧
      (∀ t, s.preset.tmpl[idx] = some t →
        (m < 1 ∨ t.length < m ∨ s.ilen < pos + m ∨ 67732 ≤ t.length - m ∨
            (∃ j, j < m ∧ letterMatches (t.getD j 0) (s.inp.read (pos + j)) = false) →
          exec .tkTmpl s = .next { s with status := .range }) ∧
        (s.preset.wf = true → t.length - m < 67732) ∧
        (∀ (digits : List Nat) parts, 1 ≤ m → m ≤ t.length → pos + m ≤ s.ilen → t.length - m < 67732 →
          digitsFit (placeholderWidths (t.take m)) digits = true →
          (∀ j, j < m → letterMatches (t.getD j 0) (s.inp.read (pos + j)) = true) →
          s.inp.slice pos m = templateText (t.take m) digits →
          parts = escAppends s 0 ++ [appendIn s .num (stepBits idx.val 4), appendIn s .num (cntBits (t.length - m)),
            appendIn s .num (fieldsOf (placeholderWidths (t.take m)) digits)] →
          exec .tkTmpl s = .next (s.emits id parts) ∧
          (s.fits (appendBits parts).length →
            exec .tkTmpl s = .next { s.appended (appendBits parts) with curSet := .num, status := .ok }))))

/-- R256, R259, R230: `TK.BIN` appends the escape, the count and the raw bytes of a run of IN; `TK.UNI1` appends a transient
switch to DELTA and one delta token, makes its codepoint the previous one if both fit, and leaves the resting set; each up to
the first append that does not fit. -/
def Obligations.BinaryAndSingleCodepointCommands : Prop :=
  ∀ (s : State) (pos n : Nat), s.canEncode → pos = s.a0.toNat → n = s.a1.toNat →
    (n < 1 ∨ 67732 ≤ n ∨ s.ilen < pos + n → exec .tkBin s = .next { s with status := .range }) ∧
    (∀ parts, 1 ≤ n → n < 67732 → pos + n ≤ s.ilen →
      parts = escAppends s 5 ++ [appendIn s .num (cntBits n), appendIn s .num (byteBits (s.inp.slice pos n))] →
      exec .tkBin s = .next (s.emits id parts) ∧
      (s.fits (appendBits parts).length →
        exec .tkBin s = .next { s.appended (appendBits parts) with curSet := .num, status := .ok })) ∧
    (s.curSet = .delta → exec .tkUni1 s = .next { s with status := .refused }) ∧
    (s.curSet ≠ .delta → s.a0.toNat < 0x80 ∨ 0x10FFFF < s.a0.toNat →
      exec .tkUni1 s = .next { s with status := .range }) ∧
    (∀ parts, s.curSet ≠ .delta → 0x80 ≤ s.a0.toNat → s.a0.toNat ≤ 0x10FFFF →
      parts = [plainAppend s (s.preset.v 0 ++ s.preset.h .delta),
        plainAppend s (deltaBits ((s.a0.toNat : Int) - s.prevCp))] →
      exec .tkUni1 s = .next (s.emits (fun t => { t with prevCp := s.a0.toNat }) parts) ∧
      (s.fits (appendBits parts).length →
        exec .tkUni1 s = .next { s.appended (appendBits parts) with prevCp := s.a0.toNat, status := .ok }))

/-- R270 to R277: `SM.FIND` reports a match that no other match is preferred to, or none where there is none. -/
def Obligations.FindReportsThePreferredMatch : Prop :=
  ∀ (s : State) (l : Nat), s.canEncode → l = s.a0.toNat →
    (s.ilen < l → exec .smFind s = .next { s with status := .range }) ∧
    (l ≤ s.ilen →
      (∃ m, isCandidate s l m ∧ (∀ b, isCandidate s l b → preferred m b) ∧
        exec .smFind s =
          .next { s with
            r0 := 1, r1 := BitVec.ofNat 32 m.len, r2 := BitVec.ofNat 32 m.dist, r3 := BitVec.ofNat 32 m.line,
            status := .ok }) ∨
      ((∀ b, ¬ isCandidate s l b) ∧
        exec .smFind s = .next { s with r0 := 0, r1 := 0, r2 := 0, r3 := 0, status := .ok }))

/-- R291, R292, R295: `DEC.STEP` at the end of IN halts END_INPUT; on a bare character of the resting set it outputs that
character, an ALPHA letter in upper case while `UPPER` is 1, and consumes its code. -/
def Obligations.DecStepEndsOrOutputsACharacter : Prop :=
  ∀ s : State, s.canDecode → s.halt = .run →
    (8 * s.ilen ≤ s.roff → exec .decStep s = .next { s with r0 := 0, halt := .endInput, status := .endInput }) ∧
    (∀ v c, s.preset.wf = true → s.reos = false → v ≠ 0 → s.preset.v v <+: remainingBits s → s.room 1 →
      (s.curSet = .alpha → s.preset.symbol .alpha v = .chr c →
        exec .decStep s =
          .next (s.tokenDone (s.preset.v v).length
            [if s.upper = true ∧ 0x61 ≤ c.toNat ∧ c.toNat ≤ 0x7A then c - 32 else c])) ∧
      (s.curSet = .num → s.preset.symbol .num v = .chr c →
        exec .decStep s = .next (s.tokenDone (s.preset.v v).length [c])))

/-- R320: `DEC.RUN` always comes to a halt, and answers the halt and the number of bytes written (also from an automaton
already halted, where R291 says that it only returns the status: log entry 12, the model's reading); running from the state
after one `DEC.STEP` comes to the same end. -/
def Obligations.DecRunStepsToAHalt : Prop :=
  ∀ s : State, s.canDecode →
    ∃ t, exec .decRun s = .next t ∧ t.halt ≠ .run ∧ t.status = t.halt.status ∧ t.r0 = BitVec.ofNat 32 t.opos ∧
      (∀ u, s.halt = .run → exec .decStep s = .next u → exec .decRun u = .next t)

/-- R293, D7 (log entry 19): under every Preset, a step that has needed a bit past the end of IN has halted END_INPUT, also
where the bits spell no code. -/
def Obligations.StepsThatOverReadEndTheInput : Prop :=
  ∀ s t : State, s.running → exec .decStep s = .next t → t.reos = true →
    t.halt = .endInput ∧ t.status = .endInput

/-- R96 to R99, R163, R164, R184, R186, log entry 9: a code form consumes its code and returns its value. -/
def Obligations.CodeFormsReturnTheirValue : Prop :=
  ∀ s : State, s.canDecode →
    (∀ h, exec (horizontalRow h) s =
      .next { s with
        roff := s.roff + (s.preset.h h).length, r0 := BitVec.ofNat 32 h.number.val, status := .ok }) ∧
    (∀ v, exec (verticalRow v) s =
      .next { s with roff := s.roff + (s.preset.v v).length, r0 := BitVec.ofNat 32 v.val, status := .ok }) ∧
    (∀ i, i ≤ 4 → exec (step4Row i) s =
      .next { s with roff := s.roff + (stepBits i 4).length, r0 := BitVec.ofNat 32 i, status := .ok }) ∧
    (∀ i, i ≤ 5 → exec (step5Row i) s =
      .next { s with roff := s.roff + (stepBits i 5).length, r0 := BitVec.ofNat 32 i, status := .ok }) ∧
    (∀ i f, i ≤ 4 → f < 2 ^ countWidth i → exec (countRow i f) s =
      .next { s with
        roff := s.roff + (cntBits (countBase i + f)).length, r0 := BitVec.ofNat 32 (countBase i + f), status := .ok })

/-- R292, R294, R295, R296, R300, R254, R345 (M13), log entry 10: the forms that stand for a character, an uppercase letter,
a line-control symbol or a frequent substring output it; a symbol of NUM makes NUM the resting set. CRLF and a frequent
substring that do not fit leave the bytes that do and halt OVERFLOW; an absent frequent substring halts MALFORMED. -/
def Obligations.CharacterFormsOutputTheirBytes : Prop :=
  ∀ s : State, s.running →
    (∀ v c, v ≠ 0 → s.room 1 → s.curSet = .alpha → s.preset.symbol .alpha v = .chr c →
      exec (.symbol v) s =
        .next (s.tokenDone (s.preset.v v).length
          [if s.upper = true ∧ 0x61 ≤ c.toNat ∧ c.toNat ≤ 0x7A then c - 32 else c])) ∧
    (∀ v c, v ≠ 0 → s.room 1 → s.curSet = .num → s.preset.symbol .num v = .chr c →
      exec (.symbol v) s = .next (s.tokenDone (s.preset.v v).length [c])) ∧
    (∀ v c, 2 ≤ v.val → s.room 1 → s.curSet = .alpha → s.upper = false → s.preset.symbol .alpha v = .chr c →
      exec (.shift v) s = .next (s.tokenDone (s.formLength (.shift v)) [c - 32])) ∧
    (∀ v c, s.room 1 → s.preset.symbol .sym v = .chr c →
      exec (.symSymbol v) s = .next (s.tokenDone (s.formLength (.symSymbol v)) [c])) ∧
    (∀ v c, s.room 1 → s.preset.symbol .num v = .chr c →
      exec (.numSymbol v) s =
        .next (s.numDone (.numSymbol v) [c])) ∧
    (s.room 1 → exec .ctrlLf s = .next (s.tokenDone (s.formLength .ctrlLf) [0x0A])) ∧
    (s.room 2 → exec .ctrlCrlf s = .next (s.tokenDone (s.formLength .ctrlCrlf) [0x0D, 0x0A])) ∧
    (s.overrun 2 → exec .ctrlCrlf s = .next (s.cutShort (s.formLength .ctrlCrlf) [0x0D, 0x0A])) ∧
    (s.room 1 → exec .ctrlTab s = .next (s.tokenDone (s.formLength .ctrlTab) [0x09])) ∧
    (s.room 1 → exec .ctrlCr s = .next (s.tokenDone (s.formLength .ctrlCr) [0x0D])) ∧
    (∀ (i : Fin 6) (v : Fin 28) (bs : ByteStr), s.preset.freq[i] = some bs →
      (s.preset.places (.freq i) = [(.sym, v)] →
        (s.room bs.length → exec (freqRow i) s = .next (s.tokenDone (s.formLength (freqRow i)) bs)) ∧
        (s.overrun bs.length → exec (freqRow i) s = .next (s.cutShort (s.formLength (freqRow i)) bs))) ∧
      (s.preset.places (.freq i) = [(.num, v)] →
        (s.room bs.length → exec (freqRow i) s = .next (s.numDone (freqRow i) bs)) ∧
        (s.overrun bs.length →
          exec (freqRow i) s = .next { s.cutShort (s.formLength (freqRow i)) bs with curSet := .num }))) ∧
    (∀ (i : Fin 6) (v : Fin 28), s.preset.freq[i] = none →
      (s.preset.places (.freq i) = [(.sym, v)] →
        exec (freqRow i) s = .next (s.malformedAt (s.formLength (freqRow i)))) ∧
      (s.preset.places (.freq i) = [(.num, v)] →
        exec (freqRow i) s = .next { s.malformedAt (s.formLength (freqRow i)) with curSet := .num }))

/-- R296 to R299, R303, R304, R307, R345 (M4, M5), log entry 10: the forms that only move the set state consume their bits and
output nothing. The bare switch of ALPHA and NUM, the one of DELTA and the escape SWITCH go on with the tail that follows,
whichever set's it is: they do what the whole token does of which they are the first bits. A second shift in ALPHA that is
no switch to ALPHA, and the escape SWITCH outside the resting set DELTA, are MALFORMED. -/
def Obligations.SetFormsMoveTheSetState : Prop :=
  ∀ s : State, s.running →
    (s.curSet = .alpha → s.upper = false →
      exec .upperOn s = .next { s.tokenDone (s.formLength .upperOn) [] with upper := true } ∧
      exec .enterd s = .next { s.tokenDone (s.formLength .enterd) [] with curSet := .delta }) ∧
    (s.curSet = .alpha → s.upper = true →
      exec .upperOff s = .next { s.tokenDone (s.formLength .upperOff) [] with upper := false } ∧
      exec (.swResting .alpha) s =
        .next { s.tokenDone (s.formLength (.swResting .alpha)) [] with upper := false }) ∧
    (s.curSet ≠ .alpha →
      exec .toAlpha s = .next { s.tokenDone (s.formLength .toAlpha) [] with curSet := .alpha }) ∧
    (s.curSet = .num →
      exec (.swResting .alpha) s =
        .next { s.tokenDone (s.formLength (.swResting .alpha)) [] with curSet := .alpha }) ∧
    (s.curSet = .delta →
      exec (.swDelta .alpha) s = .next { s.tokenDone (s.formLength (.swDelta .alpha)) [] with curSet := .alpha } ∧
      exec (.swDelta .delta) s = .next (s.tokenDone (s.formLength (.swDelta .delta)) [])) ∧
    (s.curSet = .delta → s.preset.wf = true →
      (escapeBits 1 ++ s.preset.h .delta <+: remainingBits s →
        exec .desc1 s = .next (s.tokenDone (s.formLength (.swDelta .delta)) [])) ∧
      (escapeBits 1 ++ s.preset.h .alpha <+: remainingBits s →
        exec .desc1 s = .next { s.tokenDone (s.formLength (.swDelta .alpha)) [] with curSet := .alpha })) ∧
    (∀ v c, s.curSet ≠ .delta → s.preset.wf = true → s.room 1 → s.preset.symbol .sym v = .chr c →
      s.preset.v 0 ++ s.preset.h .sym ++ s.preset.v v <+: remainingBits s →
      exec (.swResting .sym) s = .next (s.tokenDone (s.formLength (.symSymbol v)) [c])) ∧
    (∀ h i, s.preset.wf = true → switchBits s.preset s.curSet h <+: remainingBits s → wireForm .token s = some i →
      (s.curSet ≠ .delta → ∃ t, exec (.swResting h) s = .next t ∧ exec i s = .next t) ∧
      (s.curSet = .delta →
        ∃ t, exec (.swDelta h) s = .next t ∧ exec .desc1 s = .next t ∧ exec i s = .next t)) ∧
    (∀ h bits, s.curSet = .alpha → s.upper = false → s.preset.wf = true → h ≠ .alpha →
      bits = s.preset.v 0 ++ s.preset.h .alpha ++ s.preset.v 0 ++ s.preset.h h → bits <+: remainingBits s →
      exec .decStep s = .next (s.malformedAt bits.length) ∧
      exec (.swResting .alpha) s = .next (s.malformedAt bits.length)) ∧
    (s.curSet ≠ .delta → exec .desc1 s = .next (s.malformedAt (escapeBits 1).length))

/-- R294, R303 to R306, R206, R212, R345 (M5, M6), log entry 10: a delta token with a magnitude moves `PREV_CP` and outputs
the codepoint's UTF-8 bytes, resting or transient; where they do not fit, the bytes that do stay, `PREV_CP` is moved, and it
halts OVERFLOW; out of range it halts MALFORMED and moves nothing else; a literal escape outputs its byte; a transient escape
SWITCH is MALFORMED. -/
def Obligations.DeltaFormsOutputTheCodepoint : Prop :=
  ∀ s : State, s.running →
    (∀ (d : DeltaTok) (x : Int) (bs : ByteStr), deltaTokHead d = .delta x → bs = utf8 (s.prevCp + x).toNat →
      (0x80 ≤ s.prevCp + x → s.prevCp + x ≤ 0x10FFFF →
        (s.room bs.length →
          exec (deltaRow d) s =
            .next { s.tokenDone (deltaTokBits d).length bs with prevCp := (s.prevCp + x).toNat } ∧
          (s.curSet ≠ .delta → exec (.uni1 d) s =
            .next { s.tokenDone (s.formLength (.uni1 d)) bs with prevCp := (s.prevCp + x).toNat })) ∧
        (s.overrun bs.length →
          exec (deltaRow d) s =
            .next { s.cutShort (deltaTokBits d).length bs with prevCp := (s.prevCp + x).toNat } ∧
          (s.curSet ≠ .delta → exec (.uni1 d) s =
            .next { s.cutShort (s.formLength (.uni1 d)) bs with prevCp := (s.prevCp + x).toNat }))) ∧
      (s.prevCp + x < 0x80 ∨ 0x10FFFF < s.prevCp + x →
        exec (deltaRow d) s = .next (s.malformedAt (deltaTokBits d).length) ∧
        (s.curSet ≠ .delta → exec (.uni1 d) s = .next (s.malformedAt (s.formLength (.uni1 d)))))) ∧
    (∀ (e : Fin 5) (b : Byte), e ≠ 1 → b = ([0x20, 0, 0x2C, 0x2E, 0x0A] : ByteStr).getD e.val 0 →
      (s.room 1 →
        exec (deltaRow (.escape e)) s = .next (s.tokenDone (escapeBits e.val).length [b]) ∧
        (s.curSet ≠ .delta →
          exec (.uni1 (.escape e)) s = .next (s.tokenDone (s.formLength (.uni1 (.escape e))) [b]))) ∧
      (s.overrun 1 →
        exec (deltaRow (.escape e)) s = .next (s.cutShort (escapeBits e.val).length [b]) ∧
        (s.curSet ≠ .delta →
          exec (.uni1 (.escape e)) s = .next (s.cutShort (s.formLength (.uni1 (.escape e))) [b])))) ∧
    (s.curSet ≠ .delta →
      exec (.uni1 (.escape 1)) s = .next (s.malformedAt (s.formLength (.uni1 (.escape 1)))))

/-- R236, R237, R241, R294, R345 (M7, M8, M9), R72, log entry 10: a back-reference repeats the last bytes in order,
overlapping where its distance is below its length, or copies from a line; a repeat run repeats the last byte. What does not
fit is cut short. A reference before the start of the output, to a line there is not or beyond a line, and a repeat of
nothing, halt MALFORMED and write nothing. The copy from OUT is stated for an OUT in canonical form (kept by every step, the
statement StepKeepsMemoriesCanonical). -/
def Obligations.CopyFormsRepeatEarlierBytes : Prop :=
  ∀ s : State, s.running →
    (∀ len dist i bs, s.lhen = false → i = Instr.backref0 len dist → 4 ≤ dist →
      bs = (List.range len).map (fun k => s.out.read (s.opos - dist + k % dist)) →
      (s.out.wf = true → dist ≤ s.opos →
        (s.room len → exec i s = .next (s.tokenDone (s.formLength i) bs)) ∧
        (s.overrun len → exec i s = .next (s.cutShort (s.formLength i) bs))) ∧
      (s.opos < dist → exec i s = .next (s.malformedAt (s.formLength i)))) ∧
    (∀ len x i bs, s.lhen = true → i = Instr.backref1 len x 0 →
      bs = (List.range len).map (fun k => s.out.read (s.opos - (x + 4) + k % (x + 4))) →
      (s.out.wf = true → x + 4 ≤ s.opos →
        (s.room len → exec i s = .next (s.tokenDone (s.formLength i) bs)) ∧
        (s.overrun len → exec i s = .next (s.cutShort (s.formLength i) bs))) ∧
      (s.opos < x + 4 → exec i s = .next (s.malformedAt (s.formLength i)))) ∧
    (∀ len x k i, s.lhen = true → i = Instr.backref1 len x (k + 1) →
      (∀ line bs, s.lh[k]? = some line → bs = (line.drop x).take len →
        (x + len ≤ line.length →
          (s.room len → exec i s = .next (s.tokenDone (s.formLength i) bs)) ∧
          (s.overrun len → exec i s = .next (s.cutShort (s.formLength i) bs))) ∧
        (line.length < x + len → exec i s = .next (s.malformedAt (s.formLength i)))) ∧
      (s.lh.length ≤ k → exec i s = .next (s.malformedAt (s.formLength i)))) ∧
    (∀ r bs, bs = List.replicate r (s.out.read (s.opos - 1)) →
      (s.opos ≠ 0 →
        (s.room r → exec (.rpt r) s = .next (s.numDone (.rpt r) bs)) ∧
        (s.overrun r → exec (.rpt r) s = .next { s.cutShort (s.formLength (.rpt r)) bs with curSet := .num })) ∧
      (s.opos = 0 → exec (.rpt r) s = .next { s.malformedAt (s.formLength (.rpt r)) with curSet := .num }))

/-- R244, R247, R250, R257, R294, R345 (M10, M11, M12), log entry 10: the ESC forms output their digits, the GUID with its
hyphens, the template's text or the raw bytes, and make NUM the resting set. Where the output does not fit, the bytes that do
stay and the fields up to the rejected byte's are consumed. An empty run, a template there is not and an unmatched length
beyond the template halt MALFORMED. -/
def Obligations.EscFormsOutputTheirPayload : Prop :=
  ∀ (s : State) (k : Nat), s.running → k = s.ocap - s.opos →
    (∀ ns up i bs, i = (match up with | .lower => Instr.esc1HexLower ns | .upper => Instr.esc3HexUpper ns) →
      bs = ns.map (fun x => hexChar x.toNat up) →
      (ns ≠ [] →
        (s.room ns.length → exec i s = .next (s.numDone i bs)) ∧
        (s.overrun ns.length →
          exec i s = .next { s.cutShort (s.headLength i + 4 * (k + 1)) bs with curSet := .num })) ∧
      (ns = [] → exec i s = .next { s.malformedAt (s.headLength i) with curSet := .num })) ∧
    (∀ ns up i, ns.length = 32 → i = (match up with | .lower => Instr.esc2GuidLower ns | .upper => Instr.esc4GuidUpper ns) →
      (s.room 36 → exec i s = .next (s.numDone i (guidText up ns))) ∧
      (s.overrun 36 →
        exec i s =
          .next { s.cutShort (s.headLength i + 4 * ((List.range (k + 1)).filter (fun j => j ∉ [8, 13, 18, 23])).length)
            (guidText up ns) with curSet := .num })) ∧
    (∀ bs i, i = Instr.esc5Binary bs →
      (bs ≠ [] →
        (s.room bs.length → exec i s = .next (s.numDone i bs)) ∧
        (s.overrun bs.length →
          exec i s = .next { s.cutShort (s.headLength i + 8 * (k + 1)) bs with curSet := .num })) ∧
      (bs = [] → exec i s = .next { s.malformedAt (s.headLength i) with curSet := .num })) ∧
    (∀ (idx : Fin 5) rem digits i, i = Instr.esc0Template idx rem digits →
      (∀ t bs, s.preset.tmpl[idx] = some t →
        (bs = templateText (t.take (t.length - rem)) digits → rem ≤ t.length →
          digitsFit (placeholderWidths (t.take (t.length - rem))) digits = true →
          (s.room (t.length - rem) → exec i s = .next (s.numDone i bs)) ∧
          (s.overrun (t.length - rem) →
            exec i s =
              .next { s.cutShort (s.headLength i + (placeholderWidths (t.take (k + 1))).sum) bs with
                curSet := .num })) ∧
        (t.length < rem → exec i s = .next { s.malformedAt (s.headLength i) with curSet := .num })) ∧
      (s.preset.tmpl[idx] = none → exec i s = .next { s.malformedAt (s.headLength i) with curSet := .num }))

/-- R93, R162, R295, log entries 10 and 13: the terminator halts the automaton END_TERM with NUM the resting set; the marker
is skipped in DEC and written in ENC; the padding repeats the last bit in ENC and is not read in DEC. -/
def Obligations.MarkerTerminatorAndPadding : Prop :=
  ∀ s : State,
    (s.running → exec .term s =
      .next { s with
        roff := s.roff + s.formLength .term, curSet := .num, r0 := 0, halt := .endTerm, status := .endTerm }) ∧
    (s.canDecode → exec .magic s = .next { s with roff := s.magicLen, status := .ok }) ∧
    (s.canEncode → s.fits s.magicLen →
      exec .magic s = .next { s.appended (List.replicate s.magicLen true) with status := .ok }) ∧
    (s.running → exec .pad s = .next { s with r0 := 0, status := .ok }) ∧
    (∀ n, s.canEncode → n = (8 - s.woff % 8) % 8 → s.fits n →
      exec .pad s = .next { s.appended (List.replicate n (s.out.bit (s.woff - 1))) with status := .ok })

/-- R20 to R36, log entries 9, 10, 13: what the wire forms leave unchanged, on every status: `WOFF` and the last three
result registers; a code form changes nothing but `ROFF`, `R0` and `STATUS`; a token changes no byte of OUT but those from
`OPOS` up to the new `OPOS`. -/
def Obligations.WireFormsFrame : Prop :=
  ∀ (i : Instr) (s t : State), commandNumber i = none → i ≠ .magic → i ≠ .pad → exec i s = .next t →
    t.woff = s.woff ∧ t.r1 = s.r1 ∧ t.r2 = s.r2 ∧ t.r3 = s.r3 ∧
    (readerOf i ∉ [Reader.token, .switch, .delta] →
      t = { s with roff := t.roff, r0 := t.r0, status := t.status }) ∧
    (∀ a, a < s.opos ∨ t.opos ≤ a → t.out.read a = s.out.read a)

/-- R180 to R188: a count appended by one block is read back by another with the same value, and exactly its bits are
consumed. -/
def Obligations.CountsRoundTripThroughTheStream : Prop :=
  ∀ e e' d : State, e.canEncode → e.out.wf = true → exec .cntEnc e = .next e' → e'.status = .ok → d.canDecode →
    carries e e' d → exec .cntDec d = .next { d with roff := e'.woff, r0 := e.a0, status := .ok }

/-- R153, R154, R158 to R161, R211, R214: from equal `SET`, `UPPER` and `PREV_CP`, the automaton consumes exactly the bits a
token command appended and makes the same changes to `SET`, `UPPER` and `PREV_CP`, wherever it does not halt. A command of
one token takes one step. `PC.LIT`, `PC.UPPER` and `PC.ENTERD`, in any set and mode, append up to three tokens, which the
automaton executes without a halt; for `PC.LIT` it outputs the character, for the others nothing. The terminator halts it in
the same set, before the padding. -/
def Obligations.TokensDecodeInLockStep : Prop :=
  ∀ (i : Instr) (e e' d : State),
    e.canEncode → e.out.wf = true → e.RegistersInRange → e.preset.wf = true → symbolsPlaced e.preset →
    exec i e = .next e' → e'.status = .ok →
    d.running → d.preset = e.preset → d.curSet = e.curSet → d.upper = e.upper → d.prevCp = e.prevCp →
    d.lhen = e.lhen → carries e e' d →
    (i ∈ [Instr.pcSw, .pcCtrl, .udlEnc, .udlEsc, .tkBackref, .tkRepeat, .tkHex, .tkGuid, .tkTmpl, .tkFreq, .tkBin,
          .tkUni1] ∨
        (e.curSet = .alpha ∧ (i = .pcUpper ∨ (i = .pcEnterd ∧ e.upper = false))) →
      ∀ d', exec .decStep d = .next d' → d'.status = .ok →
        d'.roff = e'.woff ∧ d'.curSet = e'.curSet ∧ d'.upper = e'.upper ∧ d'.prevCp = e'.prevCp) ∧
    (i ∈ [Instr.pcLit, .pcUpper, .pcEnterd] → (i = .pcLit → d.room 1) →
      ∀ d', d' = d.decodeTo e'.woff 3 →
        d'.halt = .run ∧ d'.roff = e'.woff ∧ d'.curSet = e'.curSet ∧ d'.upper = e'.upper ∧ d'.prevCp = e'.prevCp ∧
        (i = .pcLit → d'.out = d.out.write d.opos (e.a0.setWidth 8) ∧ d'.opos = d.opos + 1) ∧
        (i ≠ .pcLit → d'.out = d.out ∧ d'.opos = d.opos)) ∧
    (i = .pcTerm →
      ∃ d', exec .decStep d = .next d' ∧ d'.halt = .endTerm ∧ d'.roff ≤ e'.woff ∧ e'.woff < d'.roff + 8 ∧
        d'.curSet = e'.curSet ∧ d'.upper = e'.upper ∧ d'.prevCp = e'.prevCp)

/-- R153, R154, R383: a printable character coded in ALPHA is one token, and the automaton, in the same state, outputs that
character and reaches the same resting set. -/
def Obligations.LiteralsRoundTripThroughTheStream : Prop :=
  ∀ e e' d : State, e.canEncode → e.out.wf = true → e.preset.wf = true → horizontalShort e.preset →
    e.curSet = .alpha → e.upper = false → exec .pcLit e = .next e' → e'.status = .ok →
    d.running → d.preset = e.preset → d.curSet = .alpha → d.upper = false → d.room 1 → carries e e' d →
    exec .decStep d =
      .next { d with
        roff := e'.woff, out := d.out.write d.opos (e.a0.setWidth 8), opos := d.opos + 1, curSet := e'.curSet,
        r0 := 1, status := .ok }

/-- R236, R271, R274, R277, R382 (2): a match that `SM.FIND` may report, sent as a back-reference, restores the text: a
decoder that holds the text before the cursor holds it up to the end of the match. The back-reference is executed as a row of
its own, which is the model's choice (log entry 10). -/
def Obligations.MatchesRestoreTheText : Prop :=
  ∀ (e d : State) (m : Match), isCandidate e d.opos m → d.running → d.lhen = e.lhen → d.lh = e.lh →
    d.room m.len → d.out.wf = true → (∀ a, a < d.opos → d.out.read a = e.inp.read a) →
    ∀ i, i = (if d.lhen then .backref1 m.len (if m.line = 0 then m.dist - 4 else m.dist) m.line
        else .backref0 m.len m.dist) →
      ∃ t, exec i d = .next t ∧ t.status = .ok ∧ t.opos = d.opos + m.len ∧
        ∀ a, a < t.opos → t.out.read a = e.inp.read a
end

