-- ==== Sys2Proof/Laws/State.lean ====
section
/-!
SUPPORT. One lemma per field per named update of the state, so that no later proof unfolds a record update.
-/

namespace Sys2Proof.Machine

@[simp] theorem State.latch_host (s : State) (w : HostWrite) (rest : List HostWrite) :
    (s.latch w rest).host = rest := rfl

@[simp] theorem State.latch_a0 (s : State) (w : HostWrite) (rest : List HostWrite) :
    (s.latch w rest).a0 = w.a0 := rfl

@[simp] theorem State.latch_a1 (s : State) (w : HostWrite) (rest : List HostWrite) :
    (s.latch w rest).a1 = w.a1 := rfl

@[simp] theorem State.latch_a2 (s : State) (w : HostWrite) (rest : List HostWrite) :
    (s.latch w rest).a2 = w.a2 := rfl

@[simp] theorem State.latch_a3 (s : State) (w : HostWrite) (rest : List HostWrite) :
    (s.latch w rest).a3 = w.a3 := rfl

@[simp] theorem State.latch_r0 (s : State) (w : HostWrite) (rest : List HostWrite) :
    (s.latch w rest).r0 = s.r0 := rfl

@[simp] theorem State.latch_r1 (s : State) (w : HostWrite) (rest : List HostWrite) :
    (s.latch w rest).r1 = s.r1 := rfl

@[simp] theorem State.latch_r2 (s : State) (w : HostWrite) (rest : List HostWrite) :
    (s.latch w rest).r2 = s.r2 := rfl

@[simp] theorem State.latch_r3 (s : State) (w : HostWrite) (rest : List HostWrite) :
    (s.latch w rest).r3 = s.r3 := rfl

@[simp] theorem State.latch_cmd (s : State) (w : HostWrite) (rest : List HostWrite) :
    (s.latch w rest).cmd = w.cmd := rfl

@[simp] theorem State.latch_status (s : State) (w : HostWrite) (rest : List HostWrite) :
    (s.latch w rest).status = s.status := rfl

@[simp] theorem State.latch_need (s : State) (w : HostWrite) (rest : List HostWrite) :
    (s.latch w rest).need = s.need := rfl

@[simp] theorem State.latch_ready (s : State) (w : HostWrite) (rest : List HostWrite) :
    (s.latch w rest).ready = s.ready := rfl

@[simp] theorem State.latch_mode (s : State) (w : HostWrite) (rest : List HostWrite) :
    (s.latch w rest).mode = s.mode := rfl

@[simp] theorem State.latch_ilen (s : State) (w : HostWrite) (rest : List HostWrite) :
    (s.latch w rest).ilen = s.ilen := rfl

@[simp] theorem State.latch_ocap (s : State) (w : HostWrite) (rest : List HostWrite) :
    (s.latch w rest).ocap = s.ocap := rfl

@[simp] theorem State.latch_magicLen (s : State) (w : HostWrite) (rest : List HostWrite) :
    (s.latch w rest).magicLen = s.magicLen := rfl

@[simp] theorem State.latch_lhen (s : State) (w : HostWrite) (rest : List HostWrite) :
    (s.latch w rest).lhen = s.lhen := rfl

@[simp] theorem State.latch_woff (s : State) (w : HostWrite) (rest : List HostWrite) :
    (s.latch w rest).woff = s.woff := rfl

@[simp] theorem State.latch_roff (s : State) (w : HostWrite) (rest : List HostWrite) :
    (s.latch w rest).roff = s.roff := rfl

@[simp] theorem State.latch_opos (s : State) (w : HostWrite) (rest : List HostWrite) :
    (s.latch w rest).opos = s.opos := rfl

@[simp] theorem State.latch_ovf (s : State) (w : HostWrite) (rest : List HostWrite) :
    (s.latch w rest).ovf = s.ovf := rfl

@[simp] theorem State.latch_reos (s : State) (w : HostWrite) (rest : List HostWrite) :
    (s.latch w rest).reos = s.reos := rfl

@[simp] theorem State.latch_curSet (s : State) (w : HostWrite) (rest : List HostWrite) :
    (s.latch w rest).curSet = s.curSet := rfl

@[simp] theorem State.latch_upper (s : State) (w : HostWrite) (rest : List HostWrite) :
    (s.latch w rest).upper = s.upper := rfl

@[simp] theorem State.latch_prevCp (s : State) (w : HostWrite) (rest : List HostWrite) :
    (s.latch w rest).prevCp = s.prevCp := rfl

@[simp] theorem State.latch_halt (s : State) (w : HostWrite) (rest : List HostWrite) :
    (s.latch w rest).halt = s.halt := rfl

@[simp] theorem State.latch_inp (s : State) (w : HostWrite) (rest : List HostWrite) :
    (s.latch w rest).inp = s.inp := rfl

@[simp] theorem State.latch_out (s : State) (w : HostWrite) (rest : List HostWrite) :
    (s.latch w rest).out = s.out := rfl

@[simp] theorem State.latch_preset (s : State) (w : HostWrite) (rest : List HostWrite) :
    (s.latch w rest).preset = s.preset := rfl

@[simp] theorem State.latch_lh (s : State) (w : HostWrite) (rest : List HostWrite) :
    (s.latch w rest).lh = s.lh := rfl

@[simp] theorem State.appended_host (s : State) (bits : BitStr) :
    (s.appended bits).host = s.host := rfl

@[simp] theorem State.appended_a0 (s : State) (bits : BitStr) :
    (s.appended bits).a0 = s.a0 := rfl

@[simp] theorem State.appended_a1 (s : State) (bits : BitStr) :
    (s.appended bits).a1 = s.a1 := rfl

@[simp] theorem State.appended_a2 (s : State) (bits : BitStr) :
    (s.appended bits).a2 = s.a2 := rfl

@[simp] theorem State.appended_a3 (s : State) (bits : BitStr) :
    (s.appended bits).a3 = s.a3 := rfl

@[simp] theorem State.appended_r0 (s : State) (bits : BitStr) :
    (s.appended bits).r0 = s.r0 := rfl

@[simp] theorem State.appended_r1 (s : State) (bits : BitStr) :
    (s.appended bits).r1 = s.r1 := rfl

@[simp] theorem State.appended_r2 (s : State) (bits : BitStr) :
    (s.appended bits).r2 = s.r2 := rfl

@[simp] theorem State.appended_r3 (s : State) (bits : BitStr) :
    (s.appended bits).r3 = s.r3 := rfl

@[simp] theorem State.appended_cmd (s : State) (bits : BitStr) :
    (s.appended bits).cmd = s.cmd := rfl

@[simp] theorem State.appended_status (s : State) (bits : BitStr) :
    (s.appended bits).status = s.status := rfl

@[simp] theorem State.appended_need (s : State) (bits : BitStr) :
    (s.appended bits).need = s.need := rfl

@[simp] theorem State.appended_ready (s : State) (bits : BitStr) :
    (s.appended bits).ready = s.ready := rfl

@[simp] theorem State.appended_mode (s : State) (bits : BitStr) :
    (s.appended bits).mode = s.mode := rfl

@[simp] theorem State.appended_ilen (s : State) (bits : BitStr) :
    (s.appended bits).ilen = s.ilen := rfl

@[simp] theorem State.appended_ocap (s : State) (bits : BitStr) :
    (s.appended bits).ocap = s.ocap := rfl

@[simp] theorem State.appended_magicLen (s : State) (bits : BitStr) :
    (s.appended bits).magicLen = s.magicLen := rfl

@[simp] theorem State.appended_lhen (s : State) (bits : BitStr) :
    (s.appended bits).lhen = s.lhen := rfl

@[simp] theorem State.appended_woff (s : State) (bits : BitStr) :
    (s.appended bits).woff = s.woff + bits.length := rfl

@[simp] theorem State.appended_roff (s : State) (bits : BitStr) :
    (s.appended bits).roff = s.roff := rfl

@[simp] theorem State.appended_opos (s : State) (bits : BitStr) :
    (s.appended bits).opos = s.opos := rfl

@[simp] theorem State.appended_ovf (s : State) (bits : BitStr) :
    (s.appended bits).ovf = s.ovf := rfl

@[simp] theorem State.appended_reos (s : State) (bits : BitStr) :
    (s.appended bits).reos = s.reos := rfl

@[simp] theorem State.appended_curSet (s : State) (bits : BitStr) :
    (s.appended bits).curSet = s.curSet := rfl

@[simp] theorem State.appended_upper (s : State) (bits : BitStr) :
    (s.appended bits).upper = s.upper := rfl

@[simp] theorem State.appended_prevCp (s : State) (bits : BitStr) :
    (s.appended bits).prevCp = s.prevCp := rfl

@[simp] theorem State.appended_halt (s : State) (bits : BitStr) :
    (s.appended bits).halt = s.halt := rfl

@[simp] theorem State.appended_inp (s : State) (bits : BitStr) :
    (s.appended bits).inp = s.inp := rfl

@[simp] theorem State.appended_out (s : State) (bits : BitStr) :
    (s.appended bits).out = s.out.putBits s.woff bits := rfl

@[simp] theorem State.appended_preset (s : State) (bits : BitStr) :
    (s.appended bits).preset = s.preset := rfl

@[simp] theorem State.appended_lh (s : State) (bits : BitStr) :
    (s.appended bits).lh = s.lh := rfl

@[simp] theorem State.written_host (s : State) (bs : ByteStr) :
    (s.written bs).host = s.host := rfl

@[simp] theorem State.written_a0 (s : State) (bs : ByteStr) :
    (s.written bs).a0 = s.a0 := rfl

@[simp] theorem State.written_a1 (s : State) (bs : ByteStr) :
    (s.written bs).a1 = s.a1 := rfl

@[simp] theorem State.written_a2 (s : State) (bs : ByteStr) :
    (s.written bs).a2 = s.a2 := rfl

@[simp] theorem State.written_a3 (s : State) (bs : ByteStr) :
    (s.written bs).a3 = s.a3 := rfl

@[simp] theorem State.written_r0 (s : State) (bs : ByteStr) :
    (s.written bs).r0 = s.r0 := rfl

@[simp] theorem State.written_r1 (s : State) (bs : ByteStr) :
    (s.written bs).r1 = s.r1 := rfl

@[simp] theorem State.written_r2 (s : State) (bs : ByteStr) :
    (s.written bs).r2 = s.r2 := rfl

@[simp] theorem State.written_r3 (s : State) (bs : ByteStr) :
    (s.written bs).r3 = s.r3 := rfl

@[simp] theorem State.written_cmd (s : State) (bs : ByteStr) :
    (s.written bs).cmd = s.cmd := rfl

@[simp] theorem State.written_status (s : State) (bs : ByteStr) :
    (s.written bs).status = s.status := rfl

@[simp] theorem State.written_need (s : State) (bs : ByteStr) :
    (s.written bs).need = s.need := rfl

@[simp] theorem State.written_ready (s : State) (bs : ByteStr) :
    (s.written bs).ready = s.ready := rfl

@[simp] theorem State.written_mode (s : State) (bs : ByteStr) :
    (s.written bs).mode = s.mode := rfl

@[simp] theorem State.written_ilen (s : State) (bs : ByteStr) :
    (s.written bs).ilen = s.ilen := rfl

@[simp] theorem State.written_ocap (s : State) (bs : ByteStr) :
    (s.written bs).ocap = s.ocap := rfl

@[simp] theorem State.written_magicLen (s : State) (bs : ByteStr) :
    (s.written bs).magicLen = s.magicLen := rfl

@[simp] theorem State.written_lhen (s : State) (bs : ByteStr) :
    (s.written bs).lhen = s.lhen := rfl

@[simp] theorem State.written_woff (s : State) (bs : ByteStr) :
    (s.written bs).woff = s.woff := rfl

@[simp] theorem State.written_roff (s : State) (bs : ByteStr) :
    (s.written bs).roff = s.roff := rfl

@[simp] theorem State.written_opos (s : State) (bs : ByteStr) :
    (s.written bs).opos = s.opos + bs.length := rfl

@[simp] theorem State.written_ovf (s : State) (bs : ByteStr) :
    (s.written bs).ovf = s.ovf := rfl

@[simp] theorem State.written_reos (s : State) (bs : ByteStr) :
    (s.written bs).reos = s.reos := rfl

@[simp] theorem State.written_curSet (s : State) (bs : ByteStr) :
    (s.written bs).curSet = s.curSet := rfl

@[simp] theorem State.written_upper (s : State) (bs : ByteStr) :
    (s.written bs).upper = s.upper := rfl

@[simp] theorem State.written_prevCp (s : State) (bs : ByteStr) :
    (s.written bs).prevCp = s.prevCp := rfl

@[simp] theorem State.written_halt (s : State) (bs : ByteStr) :
    (s.written bs).halt = s.halt := rfl

@[simp] theorem State.written_inp (s : State) (bs : ByteStr) :
    (s.written bs).inp = s.inp := rfl

@[simp] theorem State.written_out (s : State) (bs : ByteStr) :
    (s.written bs).out = s.out.fill s.opos bs := rfl

@[simp] theorem State.written_preset (s : State) (bs : ByteStr) :
    (s.written bs).preset = s.preset := rfl

@[simp] theorem State.written_lh (s : State) (bs : ByteStr) :
    (s.written bs).lh = s.lh := rfl

@[simp] theorem State.afterRead_host (s : State) (n : Nat) :
    (s.afterRead n).host = s.host := rfl

@[simp] theorem State.afterRead_a0 (s : State) (n : Nat) :
    (s.afterRead n).a0 = s.a0 := rfl

@[simp] theorem State.afterRead_a1 (s : State) (n : Nat) :
    (s.afterRead n).a1 = s.a1 := rfl

@[simp] theorem State.afterRead_a2 (s : State) (n : Nat) :
    (s.afterRead n).a2 = s.a2 := rfl

@[simp] theorem State.afterRead_a3 (s : State) (n : Nat) :
    (s.afterRead n).a3 = s.a3 := rfl

@[simp] theorem State.afterRead_r0 (s : State) (n : Nat) :
    (s.afterRead n).r0 = s.r0 := rfl

@[simp] theorem State.afterRead_r1 (s : State) (n : Nat) :
    (s.afterRead n).r1 = s.r1 := rfl

@[simp] theorem State.afterRead_r2 (s : State) (n : Nat) :
    (s.afterRead n).r2 = s.r2 := rfl

@[simp] theorem State.afterRead_r3 (s : State) (n : Nat) :
    (s.afterRead n).r3 = s.r3 := rfl

@[simp] theorem State.afterRead_cmd (s : State) (n : Nat) :
    (s.afterRead n).cmd = s.cmd := rfl

@[simp] theorem State.afterRead_status (s : State) (n : Nat) :
    (s.afterRead n).status = s.status := rfl

@[simp] theorem State.afterRead_need (s : State) (n : Nat) :
    (s.afterRead n).need = s.need := rfl

@[simp] theorem State.afterRead_ready (s : State) (n : Nat) :
    (s.afterRead n).ready = s.ready := rfl

@[simp] theorem State.afterRead_mode (s : State) (n : Nat) :
    (s.afterRead n).mode = s.mode := rfl

@[simp] theorem State.afterRead_ilen (s : State) (n : Nat) :
    (s.afterRead n).ilen = s.ilen := rfl

@[simp] theorem State.afterRead_ocap (s : State) (n : Nat) :
    (s.afterRead n).ocap = s.ocap := rfl

@[simp] theorem State.afterRead_magicLen (s : State) (n : Nat) :
    (s.afterRead n).magicLen = s.magicLen := rfl

@[simp] theorem State.afterRead_lhen (s : State) (n : Nat) :
    (s.afterRead n).lhen = s.lhen := rfl

@[simp] theorem State.afterRead_woff (s : State) (n : Nat) :
    (s.afterRead n).woff = s.woff := rfl

@[simp] theorem State.afterRead_roff (s : State) (n : Nat) :
    (s.afterRead n).roff = s.roff + n := rfl

@[simp] theorem State.afterRead_opos (s : State) (n : Nat) :
    (s.afterRead n).opos = s.opos := rfl

@[simp] theorem State.afterRead_ovf (s : State) (n : Nat) :
    (s.afterRead n).ovf = s.ovf := rfl

@[simp] theorem State.afterRead_reos (s : State) (n : Nat) :
    (s.afterRead n).reos = (s.reos || decide (0 < n ∧ 8 * s.ilen < s.roff + n)) := rfl

@[simp] theorem State.afterRead_curSet (s : State) (n : Nat) :
    (s.afterRead n).curSet = s.curSet := rfl

@[simp] theorem State.afterRead_upper (s : State) (n : Nat) :
    (s.afterRead n).upper = s.upper := rfl

@[simp] theorem State.afterRead_prevCp (s : State) (n : Nat) :
    (s.afterRead n).prevCp = s.prevCp := rfl

@[simp] theorem State.afterRead_halt (s : State) (n : Nat) :
    (s.afterRead n).halt = s.halt := rfl

@[simp] theorem State.afterRead_inp (s : State) (n : Nat) :
    (s.afterRead n).inp = s.inp := rfl

@[simp] theorem State.afterRead_out (s : State) (n : Nat) :
    (s.afterRead n).out = s.out := rfl

@[simp] theorem State.afterRead_preset (s : State) (n : Nat) :
    (s.afterRead n).preset = s.preset := rfl

@[simp] theorem State.afterRead_lh (s : State) (n : Nat) :
    (s.afterRead n).lh = s.lh := rfl

@[simp] theorem State.tokenDone_host (s : State) (n : Nat) (bs : ByteStr) :
    (s.tokenDone n bs).host = s.host := rfl

@[simp] theorem State.tokenDone_a0 (s : State) (n : Nat) (bs : ByteStr) :
    (s.tokenDone n bs).a0 = s.a0 := rfl

@[simp] theorem State.tokenDone_a1 (s : State) (n : Nat) (bs : ByteStr) :
    (s.tokenDone n bs).a1 = s.a1 := rfl

@[simp] theorem State.tokenDone_a2 (s : State) (n : Nat) (bs : ByteStr) :
    (s.tokenDone n bs).a2 = s.a2 := rfl

@[simp] theorem State.tokenDone_a3 (s : State) (n : Nat) (bs : ByteStr) :
    (s.tokenDone n bs).a3 = s.a3 := rfl

@[simp] theorem State.tokenDone_r0 (s : State) (n : Nat) (bs : ByteStr) :
    (s.tokenDone n bs).r0 = BitVec.ofNat 32 bs.length := rfl

@[simp] theorem State.tokenDone_r1 (s : State) (n : Nat) (bs : ByteStr) :
    (s.tokenDone n bs).r1 = s.r1 := rfl

@[simp] theorem State.tokenDone_r2 (s : State) (n : Nat) (bs : ByteStr) :
    (s.tokenDone n bs).r2 = s.r2 := rfl

@[simp] theorem State.tokenDone_r3 (s : State) (n : Nat) (bs : ByteStr) :
    (s.tokenDone n bs).r3 = s.r3 := rfl

@[simp] theorem State.tokenDone_cmd (s : State) (n : Nat) (bs : ByteStr) :
    (s.tokenDone n bs).cmd = s.cmd := rfl

@[simp] theorem State.tokenDone_status (s : State) (n : Nat) (bs : ByteStr) :
    (s.tokenDone n bs).status = .ok := rfl

@[simp] theorem State.tokenDone_need (s : State) (n : Nat) (bs : ByteStr) :
    (s.tokenDone n bs).need = s.need := rfl

@[simp] theorem State.tokenDone_ready (s : State) (n : Nat) (bs : ByteStr) :
    (s.tokenDone n bs).ready = s.ready := rfl

@[simp] theorem State.tokenDone_mode (s : State) (n : Nat) (bs : ByteStr) :
    (s.tokenDone n bs).mode = s.mode := rfl

@[simp] theorem State.tokenDone_ilen (s : State) (n : Nat) (bs : ByteStr) :
    (s.tokenDone n bs).ilen = s.ilen := rfl

@[simp] theorem State.tokenDone_ocap (s : State) (n : Nat) (bs : ByteStr) :
    (s.tokenDone n bs).ocap = s.ocap := rfl

@[simp] theorem State.tokenDone_magicLen (s : State) (n : Nat) (bs : ByteStr) :
    (s.tokenDone n bs).magicLen = s.magicLen := rfl

@[simp] theorem State.tokenDone_lhen (s : State) (n : Nat) (bs : ByteStr) :
    (s.tokenDone n bs).lhen = s.lhen := rfl

@[simp] theorem State.tokenDone_woff (s : State) (n : Nat) (bs : ByteStr) :
    (s.tokenDone n bs).woff = s.woff := rfl

@[simp] theorem State.tokenDone_roff (s : State) (n : Nat) (bs : ByteStr) :
    (s.tokenDone n bs).roff = s.roff + n := rfl

@[simp] theorem State.tokenDone_opos (s : State) (n : Nat) (bs : ByteStr) :
    (s.tokenDone n bs).opos = s.opos + bs.length := rfl

@[simp] theorem State.tokenDone_ovf (s : State) (n : Nat) (bs : ByteStr) :
    (s.tokenDone n bs).ovf = s.ovf := rfl

@[simp] theorem State.tokenDone_reos (s : State) (n : Nat) (bs : ByteStr) :
    (s.tokenDone n bs).reos = s.reos := rfl

@[simp] theorem State.tokenDone_curSet (s : State) (n : Nat) (bs : ByteStr) :
    (s.tokenDone n bs).curSet = s.curSet := rfl

@[simp] theorem State.tokenDone_upper (s : State) (n : Nat) (bs : ByteStr) :
    (s.tokenDone n bs).upper = s.upper := rfl

@[simp] theorem State.tokenDone_prevCp (s : State) (n : Nat) (bs : ByteStr) :
    (s.tokenDone n bs).prevCp = s.prevCp := rfl

@[simp] theorem State.tokenDone_halt (s : State) (n : Nat) (bs : ByteStr) :
    (s.tokenDone n bs).halt = s.halt := rfl

@[simp] theorem State.tokenDone_inp (s : State) (n : Nat) (bs : ByteStr) :
    (s.tokenDone n bs).inp = s.inp := rfl

@[simp] theorem State.tokenDone_out (s : State) (n : Nat) (bs : ByteStr) :
    (s.tokenDone n bs).out = s.out.fill s.opos bs := rfl

@[simp] theorem State.tokenDone_preset (s : State) (n : Nat) (bs : ByteStr) :
    (s.tokenDone n bs).preset = s.preset := rfl

@[simp] theorem State.tokenDone_lh (s : State) (n : Nat) (bs : ByteStr) :
    (s.tokenDone n bs).lh = s.lh := rfl

@[simp] theorem freshCall_host (m : Mode) (i o g : Nat) (l : Bool) (s : State) :
    (freshCall m i o g l s).host = s.host := rfl

@[simp] theorem freshCall_a0 (m : Mode) (i o g : Nat) (l : Bool) (s : State) :
    (freshCall m i o g l s).a0 = s.a0 := rfl

@[simp] theorem freshCall_a1 (m : Mode) (i o g : Nat) (l : Bool) (s : State) :
    (freshCall m i o g l s).a1 = s.a1 := rfl

@[simp] theorem freshCall_a2 (m : Mode) (i o g : Nat) (l : Bool) (s : State) :
    (freshCall m i o g l s).a2 = s.a2 := rfl

@[simp] theorem freshCall_a3 (m : Mode) (i o g : Nat) (l : Bool) (s : State) :
    (freshCall m i o g l s).a3 = s.a3 := rfl

@[simp] theorem freshCall_r0 (m : Mode) (i o g : Nat) (l : Bool) (s : State) :
    (freshCall m i o g l s).r0 = 0 := rfl

@[simp] theorem freshCall_r1 (m : Mode) (i o g : Nat) (l : Bool) (s : State) :
    (freshCall m i o g l s).r1 = 0 := rfl

@[simp] theorem freshCall_r2 (m : Mode) (i o g : Nat) (l : Bool) (s : State) :
    (freshCall m i o g l s).r2 = 0 := rfl

@[simp] theorem freshCall_r3 (m : Mode) (i o g : Nat) (l : Bool) (s : State) :
    (freshCall m i o g l s).r3 = 0 := rfl

@[simp] theorem freshCall_cmd (m : Mode) (i o g : Nat) (l : Bool) (s : State) :
    (freshCall m i o g l s).cmd = s.cmd := rfl

@[simp] theorem freshCall_status (m : Mode) (i o g : Nat) (l : Bool) (s : State) :
    (freshCall m i o g l s).status = s.status := rfl

@[simp] theorem freshCall_need (m : Mode) (i o g : Nat) (l : Bool) (s : State) :
    (freshCall m i o g l s).need = 0 := rfl

@[simp] theorem freshCall_ready (m : Mode) (i o g : Nat) (l : Bool) (s : State) :
    (freshCall m i o g l s).ready = true := rfl

@[simp] theorem freshCall_mode (m : Mode) (i o g : Nat) (l : Bool) (s : State) :
    (freshCall m i o g l s).mode = m := rfl

@[simp] theorem freshCall_ilen (m : Mode) (i o g : Nat) (l : Bool) (s : State) :
    (freshCall m i o g l s).ilen = i := rfl

@[simp] theorem freshCall_ocap (m : Mode) (i o g : Nat) (l : Bool) (s : State) :
    (freshCall m i o g l s).ocap = o := rfl

@[simp] theorem freshCall_magicLen (m : Mode) (i o g : Nat) (l : Bool) (s : State) :
    (freshCall m i o g l s).magicLen = g := rfl

@[simp] theorem freshCall_lhen (m : Mode) (i o g : Nat) (l : Bool) (s : State) :
    (freshCall m i o g l s).lhen = l := rfl

@[simp] theorem freshCall_woff (m : Mode) (i o g : Nat) (l : Bool) (s : State) :
    (freshCall m i o g l s).woff = 0 := rfl

@[simp] theorem freshCall_roff (m : Mode) (i o g : Nat) (l : Bool) (s : State) :
    (freshCall m i o g l s).roff = 0 := rfl

@[simp] theorem freshCall_opos (m : Mode) (i o g : Nat) (l : Bool) (s : State) :
    (freshCall m i o g l s).opos = 0 := rfl

@[simp] theorem freshCall_ovf (m : Mode) (i o g : Nat) (l : Bool) (s : State) :
    (freshCall m i o g l s).ovf = false := rfl

@[simp] theorem freshCall_reos (m : Mode) (i o g : Nat) (l : Bool) (s : State) :
    (freshCall m i o g l s).reos = false := rfl

@[simp] theorem freshCall_curSet (m : Mode) (i o g : Nat) (l : Bool) (s : State) :
    (freshCall m i o g l s).curSet = .alpha := rfl

@[simp] theorem freshCall_upper (m : Mode) (i o g : Nat) (l : Bool) (s : State) :
    (freshCall m i o g l s).upper = false := rfl

@[simp] theorem freshCall_prevCp (m : Mode) (i o g : Nat) (l : Bool) (s : State) :
    (freshCall m i o g l s).prevCp = 0 := rfl

@[simp] theorem freshCall_halt (m : Mode) (i o g : Nat) (l : Bool) (s : State) :
    (freshCall m i o g l s).halt = .run := rfl

@[simp] theorem freshCall_inp (m : Mode) (i o g : Nat) (l : Bool) (s : State) :
    (freshCall m i o g l s).inp = s.inp := rfl

@[simp] theorem freshCall_out (m : Mode) (i o g : Nat) (l : Bool) (s : State) :
    (freshCall m i o g l s).out = s.out := rfl

@[simp] theorem freshCall_preset (m : Mode) (i o g : Nat) (l : Bool) (s : State) :
    (freshCall m i o g l s).preset = s.preset := rfl

@[simp] theorem freshCall_lh (m : Mode) (i o g : Nat) (l : Bool) (s : State) :
    (freshCall m i o g l s).lh = s.lh := rfl

@[simp] theorem State.formLength_eq (s : State) (i : Instr) :
    s.formLength i = (encode (wireCtx s) i).length := rfl

@[simp] theorem wireCtx_preset (s : State) : (wireCtx s).preset = s.preset := rfl

@[simp] theorem wireCtx_set (s : State) : (wireCtx s).set = s.curSet := rfl

@[simp] theorem wireCtx_upper (s : State) : (wireCtx s).upper = s.upper := rfl

@[simp] theorem wireCtx_lhen (s : State) : (wireCtx s).lhen = s.lhen := rfl

@[simp] theorem wireCtx_magicLen (s : State) : (wireCtx s).magicLen = s.magicLen := rfl

/-! ## After a halt MALFORMED -/

@[simp] theorem State.malformedAt_host (s : State) (n : Nat) : (s.malformedAt n).host = s.host := rfl

@[simp] theorem State.malformedAt_a0 (s : State) (n : Nat) : (s.malformedAt n).a0 = s.a0 := rfl

@[simp] theorem State.malformedAt_a1 (s : State) (n : Nat) : (s.malformedAt n).a1 = s.a1 := rfl

@[simp] theorem State.malformedAt_a2 (s : State) (n : Nat) : (s.malformedAt n).a2 = s.a2 := rfl

@[simp] theorem State.malformedAt_a3 (s : State) (n : Nat) : (s.malformedAt n).a3 = s.a3 := rfl

@[simp] theorem State.malformedAt_r0 (s : State) (n : Nat) : (s.malformedAt n).r0 = 0 := rfl

@[simp] theorem State.malformedAt_r1 (s : State) (n : Nat) : (s.malformedAt n).r1 = s.r1 := rfl

@[simp] theorem State.malformedAt_r2 (s : State) (n : Nat) : (s.malformedAt n).r2 = s.r2 := rfl

@[simp] theorem State.malformedAt_r3 (s : State) (n : Nat) : (s.malformedAt n).r3 = s.r3 := rfl

@[simp] theorem State.malformedAt_cmd (s : State) (n : Nat) : (s.malformedAt n).cmd = s.cmd := rfl

@[simp] theorem State.malformedAt_status (s : State) (n : Nat) : (s.malformedAt n).status = .malformed := rfl

@[simp] theorem State.malformedAt_need (s : State) (n : Nat) : (s.malformedAt n).need = s.need := rfl

@[simp] theorem State.malformedAt_ready (s : State) (n : Nat) : (s.malformedAt n).ready = s.ready := rfl

@[simp] theorem State.malformedAt_mode (s : State) (n : Nat) : (s.malformedAt n).mode = s.mode := rfl

@[simp] theorem State.malformedAt_ilen (s : State) (n : Nat) : (s.malformedAt n).ilen = s.ilen := rfl

@[simp] theorem State.malformedAt_ocap (s : State) (n : Nat) : (s.malformedAt n).ocap = s.ocap := rfl

@[simp] theorem State.malformedAt_magicLen (s : State) (n : Nat) : (s.malformedAt n).magicLen = s.magicLen := rfl

@[simp] theorem State.malformedAt_lhen (s : State) (n : Nat) : (s.malformedAt n).lhen = s.lhen := rfl

@[simp] theorem State.malformedAt_woff (s : State) (n : Nat) : (s.malformedAt n).woff = s.woff := rfl

@[simp] theorem State.malformedAt_roff (s : State) (n : Nat) : (s.malformedAt n).roff = s.roff + n := rfl

@[simp] theorem State.malformedAt_opos (s : State) (n : Nat) : (s.malformedAt n).opos = s.opos := rfl

@[simp] theorem State.malformedAt_ovf (s : State) (n : Nat) : (s.malformedAt n).ovf = s.ovf := rfl

@[simp] theorem State.malformedAt_reos (s : State) (n : Nat) : (s.malformedAt n).reos = s.reos := rfl

@[simp] theorem State.malformedAt_curSet (s : State) (n : Nat) : (s.malformedAt n).curSet = s.curSet := rfl

@[simp] theorem State.malformedAt_upper (s : State) (n : Nat) : (s.malformedAt n).upper = s.upper := rfl

@[simp] theorem State.malformedAt_prevCp (s : State) (n : Nat) : (s.malformedAt n).prevCp = s.prevCp := rfl

@[simp] theorem State.malformedAt_halt (s : State) (n : Nat) : (s.malformedAt n).halt = .malformed := rfl

@[simp] theorem State.malformedAt_inp (s : State) (n : Nat) : (s.malformedAt n).inp = s.inp := rfl

@[simp] theorem State.malformedAt_out (s : State) (n : Nat) : (s.malformedAt n).out = s.out := rfl

@[simp] theorem State.malformedAt_preset (s : State) (n : Nat) : (s.malformedAt n).preset = s.preset := rfl

@[simp] theorem State.malformedAt_lh (s : State) (n : Nat) : (s.malformedAt n).lh = s.lh := rfl

/-! ## After a token has overflowed part-way -/

@[simp] theorem State.cutShort_host (s : State) (n : Nat) (bs : ByteStr) :
    (s.cutShort n bs).host = s.host := rfl

@[simp] theorem State.cutShort_a0 (s : State) (n : Nat) (bs : ByteStr) :
    (s.cutShort n bs).a0 = s.a0 := rfl

@[simp] theorem State.cutShort_a1 (s : State) (n : Nat) (bs : ByteStr) :
    (s.cutShort n bs).a1 = s.a1 := rfl

@[simp] theorem State.cutShort_a2 (s : State) (n : Nat) (bs : ByteStr) :
    (s.cutShort n bs).a2 = s.a2 := rfl

@[simp] theorem State.cutShort_a3 (s : State) (n : Nat) (bs : ByteStr) :
    (s.cutShort n bs).a3 = s.a3 := rfl

@[simp] theorem State.cutShort_r0 (s : State) (n : Nat) (bs : ByteStr) :
    (s.cutShort n bs).r0 = BitVec.ofNat 32 (s.ocap - s.opos) := rfl

@[simp] theorem State.cutShort_r1 (s : State) (n : Nat) (bs : ByteStr) :
    (s.cutShort n bs).r1 = s.r1 := rfl

@[simp] theorem State.cutShort_r2 (s : State) (n : Nat) (bs : ByteStr) :
    (s.cutShort n bs).r2 = s.r2 := rfl

@[simp] theorem State.cutShort_r3 (s : State) (n : Nat) (bs : ByteStr) :
    (s.cutShort n bs).r3 = s.r3 := rfl

@[simp] theorem State.cutShort_cmd (s : State) (n : Nat) (bs : ByteStr) :
    (s.cutShort n bs).cmd = s.cmd := rfl

@[simp] theorem State.cutShort_status (s : State) (n : Nat) (bs : ByteStr) :
    (s.cutShort n bs).status = .overflow := rfl

@[simp] theorem State.cutShort_need (s : State) (n : Nat) (bs : ByteStr) :
    (s.cutShort n bs).need = s.ocap + 1 := rfl

@[simp] theorem State.cutShort_ready (s : State) (n : Nat) (bs : ByteStr) :
    (s.cutShort n bs).ready = s.ready := rfl

@[simp] theorem State.cutShort_mode (s : State) (n : Nat) (bs : ByteStr) :
    (s.cutShort n bs).mode = s.mode := rfl

@[simp] theorem State.cutShort_ilen (s : State) (n : Nat) (bs : ByteStr) :
    (s.cutShort n bs).ilen = s.ilen := rfl

@[simp] theorem State.cutShort_ocap (s : State) (n : Nat) (bs : ByteStr) :
    (s.cutShort n bs).ocap = s.ocap := rfl

@[simp] theorem State.cutShort_magicLen (s : State) (n : Nat) (bs : ByteStr) :
    (s.cutShort n bs).magicLen = s.magicLen := rfl

@[simp] theorem State.cutShort_lhen (s : State) (n : Nat) (bs : ByteStr) :
    (s.cutShort n bs).lhen = s.lhen := rfl

@[simp] theorem State.cutShort_woff (s : State) (n : Nat) (bs : ByteStr) :
    (s.cutShort n bs).woff = s.woff := rfl

@[simp] theorem State.cutShort_roff (s : State) (n : Nat) (bs : ByteStr) :
    (s.cutShort n bs).roff = s.roff + n := rfl

@[simp] theorem State.cutShort_opos (s : State) (n : Nat) (bs : ByteStr) :
    (s.cutShort n bs).opos = s.ocap := rfl

@[simp] theorem State.cutShort_ovf (s : State) (n : Nat) (bs : ByteStr) :
    (s.cutShort n bs).ovf = true := rfl

@[simp] theorem State.cutShort_reos (s : State) (n : Nat) (bs : ByteStr) :
    (s.cutShort n bs).reos = s.reos := rfl

@[simp] theorem State.cutShort_curSet (s : State) (n : Nat) (bs : ByteStr) :
    (s.cutShort n bs).curSet = s.curSet := rfl

@[simp] theorem State.cutShort_upper (s : State) (n : Nat) (bs : ByteStr) :
    (s.cutShort n bs).upper = s.upper := rfl

@[simp] theorem State.cutShort_prevCp (s : State) (n : Nat) (bs : ByteStr) :
    (s.cutShort n bs).prevCp = s.prevCp := rfl

@[simp] theorem State.cutShort_halt (s : State) (n : Nat) (bs : ByteStr) :
    (s.cutShort n bs).halt = .overflow := rfl

@[simp] theorem State.cutShort_inp (s : State) (n : Nat) (bs : ByteStr) :
    (s.cutShort n bs).inp = s.inp := rfl

@[simp] theorem State.cutShort_out (s : State) (n : Nat) (bs : ByteStr) :
    (s.cutShort n bs).out = s.out.fill s.opos (bs.take (s.ocap - s.opos)) := rfl

@[simp] theorem State.cutShort_preset (s : State) (n : Nat) (bs : ByteStr) :
    (s.cutShort n bs).preset = s.preset := rfl

@[simp] theorem State.cutShort_lh (s : State) (n : Nat) (bs : ByteStr) :
    (s.cutShort n bs).lh = s.lh := rfl

end Sys2Proof.Machine
end

