-- ==== Sys2Proof/Laws/Ops.lean ====
section
/-!
SUPPORT. How a piece of pseudocode runs, and for each shared operation everything it can do.
-/

namespace Sys2Proof.Machine

@[simp] theorem Cmd.pure_run {α : Type} (a : α) (s : State) : (pure a : Cmd α) s = .ok a s := rfl

@[simp] theorem Cmd.bind_run {α β : Type} (x : Cmd α) (f : α → Cmd β) (s : State) :
    (x >>= f) s = match x s with
      | .ok a t => f a t
      | .error e t => .error e t := by
  simp only [bind, EStateM.bind]
  cases x s <;> rfl

@[simp] theorem Cmd.ite_run {α : Type} (c : Prop) [Decidable c] (x y : Cmd α) (s : State) :
    (if c then x else y) s = if c then x s else y s := by
  split <;> rfl

@[simp] theorem readState_run (s : State) : readState s = .ok s s := rfl

@[simp] theorem look_run {α : Type} (f : State → α) (s : State) : look f s = .ok (f s) s := rfl

@[simp] theorem update_run (f : State → State) (s : State) : update f s = .ok () (f s) := rfl

@[simp] theorem raise_run {α : Type} (e : Status) (s : State) : (raise e : Cmd α) s = .error e s := rfl

@[simp] theorem opA0_run (s : State) : opA0 s = .ok s.a0.toNat s := rfl

@[simp] theorem opA1_run (s : State) : opA1 s = .ok s.a1.toNat s := rfl

@[simp] theorem opA2_run (s : State) : opA2 s = .ok s.a2.toNat s := rfl

@[simp] theorem opByte_run (s : State) : opByte s = .ok (lowByte s.a0) s := rfl

@[simp] theorem require_run (c : Prop) [Decidable c] (e : Status) (s : State) :
    require c e s = if c then .ok () s else .error e s := by
  unfold require; split <;> rfl

@[simp] theorem setR0_run (v : Nat) (s : State) : setR0 v s = .ok () { s with r0 := BitVec.ofNat 32 v } := rfl

@[simp] theorem setR1_run (v : Nat) (s : State) : setR1 v s = .ok () { s with r1 := BitVec.ofNat 32 v } := rfl

@[simp] theorem setR2_run (v : Nat) (s : State) : setR2 v s = .ok () { s with r2 := BitVec.ofNat 32 v } := rfl

@[simp] theorem setR3_run (v : Nat) (s : State) : setR3 v s = .ok () { s with r3 := BitVec.ofNat 32 v } := rfl

@[simp] theorem setR1Signed_run (d : Int) (s : State) :
    setR1Signed d s = .ok () { s with r1 := BitVec.ofInt 32 d } := rfl

@[simp] theorem setUpper_run (b : Bool) (s : State) : setUpper b s = .ok () { s with upper := b } := rfl

@[simp] theorem setPrevCp_run (cp : Nat) (s : State) : setPrevCp cp s = .ok () { s with prevCp := cp } := rfl

@[simp] theorem enterSet_alpha_run (s : State) : enterSet .alpha s = .ok () { s with curSet := .alpha } := rfl

@[simp] theorem enterSet_num_run (s : State) : enterSet .num s = .ok () { s with curSet := .num } := rfl

@[simp] theorem enterSet_sym_run (s : State) : enterSet .sym s = .ok () s := rfl

@[simp] theorem enterSet_dict_run (s : State) : enterSet .dict s = .ok () s := rfl

@[simp] theorem enterSet_delta_run (s : State) : enterSet .delta s = .ok () s := rfl

@[simp] theorem consume_run (bits : BitStr) (s : State) :
    consume bits s = .ok () { s with roff := s.roff + bits.length } := rfl

@[simp] theorem consumeForm_run (i : Instr) (s : State) :
    consumeForm i s = .ok () { s with roff := s.roff + (encodeHead (wireCtx s) i).length } := rfl

@[simp] theorem eos_run (s : State) : eos s = if s.reos then .error .endInput s else .ok () s := rfl

/-- Everything the read of a code by the automaton can do (R293). -/
@[simp] theorem readElement_run {α : Type} (read : Cmd α) (s : State) :
    readElement read s = match read s with
      | .ok x t => if t.reos then .error .endInput t else .ok x t
      | .error e t => if t.reos then .error .endInput t else .error e t := rfl

/-- A code whose bits all lay in IN is read as its reader reads it (R293). -/
theorem readElement_ok {α : Type} {read : Cmd α} {s t : State} {x : α} (h : read s = .ok x t) (hr : t.reos = false) :
    readElement read s = .ok x t := by
  simp [h, hr]

/-- A code that needed padding ends the decode END_INPUT, whatever its reader answers (R293). -/
theorem readElement_padded {α : Type} {read : Cmd α} {s : State}
    (h : ∀ t, (∃ x, read s = .ok x t) ∨ (∃ e, read s = .error e t) → t.reos = true) :
    ∃ t, readElement read s = .error .endInput t := by
  rw [readElement_run]
  cases hr : read s with
  | ok x t => exact ⟨t, by simp [h t (.inl ⟨x, hr⟩)]⟩
  | error e t => exact ⟨t, by simp [h t (.inr ⟨e, hr⟩)]⟩

@[simp] theorem checkReady_run (s : State) :
    checkReady s = if s.ready then .ok () s else .error .refused s := rfl

@[simp] theorem checkMode_run (m : Mode) (s : State) :
    checkMode m s = if s.mode = m then .ok () s else .error .refused s := rfl

/-- Everything an append can do (R121): all of the bits, or none with Overflow. -/
theorem putBits_run (bits : BitStr) (s : State) :
    putBits bits s =
      if s.ovf then .error .overflow s
      else if 8 * s.ocap < s.woff + bits.length then
        .error .overflow { s with ovf := true, need := (s.woff + bits.length + 7) / 8 }
      else .ok () (s.appended bits) := rfl

/-- An append that fits (R121). -/
theorem putBits_fits {bits : BitStr} {s : State} (h : s.fits bits.length) :
    putBits bits s = .ok () (s.appended bits) := by
  rw [putBits_run, if_neg (by simp [h.1]), if_neg (by have := h.2; omega)]

/-- An append that succeeded fitted, and left the state that has the bits (R121). -/
theorem putBits_ok {bits : BitStr} {s t : State} (h : putBits bits s = .ok () t) :
    s.fits bits.length ∧ t = s.appended bits := by
  rw [putBits_run] at h
  split at h
  · cases h
  · split at h
    · cases h
    · cases h
      exact ⟨⟨by simpa using ‹¬ s.ovf = true›, by omega⟩, rfl⟩

/-- An append that does not fit ends the command with the state R121 gives (R341, R343). -/
theorem putBits_unfit {bits : BitStr} {s : State} (h : ¬ s.fits bits.length) :
    ∃ t, putBits bits s = .error .overflow t ∧ { t with status := .overflow } = s.overflowed bits.length := by
  rw [putBits_run]
  unfold State.overflowed
  cases ho : s.ovf
  · rw [if_neg (by simp), if_pos (by simp [State.fits, ho] at h; omega)]
    exact ⟨_, rfl, by simp⟩
  · exact ⟨s, by simp, by simp [ho]⟩

/-- Bits put one after another are put as one string (R121). -/
theorem Memory.putBits_append (m : Memory) (o : Nat) (a b : BitStr) :
    m.putBits o (a ++ b) = (m.putBits o a).putBits (o + a.length) b := by
  induction a generalizing m o with
  | nil => rfl
  | cons x a ih =>
    have h : o + (x :: a).length = o + 1 + a.length := by simp; omega
    rw [h]
    exact ih (m.putBit o x) (o + 1)

/-- Two appends are one append of both strings (R121). -/
@[simp] theorem State.appended_appended (s : State) (a b : BitStr) :
    (s.appended a).appended b = s.appended (a ++ b) := by
  simp [State.appended, Memory.putBits_append, Nat.add_assoc]

/-- If a string fits, its first part fits, and then its second (R121). -/
theorem State.fits_split {s : State} {a b : BitStr} (h : s.fits (a ++ b).length) :
    s.fits a.length ∧ (s.appended a).fits b.length := by
  simp only [State.fits, List.length_append, State.appended_ovf, State.appended_woff, State.appended_ocap] at *
  exact ⟨⟨h.1, by omega⟩, h.1, by omega⟩

/-- An append after `SET` was written is the append before it (R121). -/
theorem State.appended_afterSet (s : State) (c : Resting) (bits : BitStr) :
    ({ s with curSet := c } : State).appended bits = { s.appended bits with curSet := c } := rfl

/-- An append after `UPPER` was written is the append before it (R121). -/
theorem State.appended_afterUpper (s : State) (b : Bool) (bits : BitStr) :
    ({ s with upper := b } : State).appended bits = { s.appended bits with upper := b } := rfl

/-- The set after `EmitSW(h)` (R151). -/
def setAfter (cur : Resting) : SetId → Resting
  | .alpha => .alpha
  | .num => .num
  | .sym => cur
  | .dict => cur
  | .delta => cur

/-- `EmitSW(h)` where the switch fits: its bits, then `SET` (R151). -/
theorem emitSW_fits {s : State} {h : SetId} (hf : s.fits (switchBits s.preset s.curSet h).length) :
    emitSW h s =
      .ok () { s.appended (switchBits s.preset s.curSet h) with curSet := setAfter s.curSet h } := by
  unfold emitSW
  simp only [Cmd.bind_run, readState_run, putBits_fits hf]
  cases h <;> rfl

/-- A switch sent only from another resting set, where it fits (R154, R233). -/
theorem emitSWUnless_alpha_fits {s : State} (hf : s.fits (switchUnless s .alpha .alpha).length) :
    emitSWUnless .alpha .alpha s = .ok () { s.appended (switchUnless s .alpha .alpha) with curSet := .alpha } := by
  unfold emitSWUnless switchUnless at *
  simp only [Cmd.bind_run, readState_run]
  by_cases hc : s.curSet = .alpha
  · simp only [hc, if_true, Cmd.pure_run]
    congr 1
    simp [State.appended, Memory.putBits, ← hc]
  · simp only [hc, if_false] at *
    rw [emitSW_fits hf]; rfl

/-- A switch to NUM sent only from another resting set, where it fits (R154, R233). -/
theorem emitSWUnless_num_fits {s : State} (hf : s.fits (switchUnless s .num .num).length) :
    emitSWUnless .num .num s = .ok () { s.appended (switchUnless s .num .num) with curSet := .num } := by
  unfold emitSWUnless switchUnless at *
  simp only [Cmd.bind_run, readState_run]
  by_cases hc : s.curSet = .num
  · simp only [hc, if_true, Cmd.pure_run]
    congr 1
    simp [State.appended, Memory.putBits, ← hc]
  · simp only [hc, if_false] at *
    rw [emitSW_fits hf]; rfl

/-- A vertical code, where it fits. -/
theorem emitV_fits {s : State} {v : Fin 28} (hf : s.fits (s.preset.v v).length) :
    emitV v s = .ok () (s.appended (s.preset.v v)) := by
  unfold emitV
  simp only [Cmd.bind_run, look_run, putBits_fits hf]

/-- `EmitNUM(v)` where it fits (R233). -/
theorem emitNUM_fits {s : State} {v : Fin 28} (hf : s.fits (switchUnless s .num .num ++ s.preset.v v).length) :
    emitNUM v s = .ok () { s.appended (switchUnless s .num .num ++ s.preset.v v) with curSet := .num } := by
  obtain ⟨h1, h2⟩ := State.fits_split hf
  unfold emitNUM
  simp only [Cmd.bind_run, emitSWUnless_num_fits h1]
  have h3 : ({ s.appended (switchUnless s .num .num) with curSet := .num } : State).fits (s.preset.v v).length := h2
  rw [emitV_fits h3, State.appended_afterSet, State.appended_appended]; rfl

/-- `EmitESC(k)` where it fits (R232). -/
theorem emitESC_fits {s : State} {k : Nat}
    (hf : s.fits (switchBits s.preset s.curSet .num ++ s.preset.v switchIndex ++ stepBits k 5).length) :
    emitESC k s =
      .ok () { s.appended (switchBits s.preset s.curSet .num ++ s.preset.v switchIndex ++ stepBits k 5) with
        curSet := .num } := by
  obtain ⟨h1, h2⟩ := State.fits_split hf
  obtain ⟨h3, h4⟩ := State.fits_split h1
  unfold emitESC
  simp only [Cmd.bind_run, emitSW_fits h3, setAfter]
  have h5 : ({ s.appended (switchBits s.preset s.curSet .num) with curSet := .num } : State).fits
    (s.preset.v switchIndex).length := h4
  rw [emitV_fits h5, State.appended_afterSet, State.appended_appended]
  have h6 : ({ s.appended (switchBits s.preset s.curSet .num ++ s.preset.v switchIndex) with
    curSet := .num } : State).fits (stepBits k 5).length := h2
  simp only
  rw [show ((s.appended (switchBits s.preset s.curSet .num)).preset) = s.preset from rfl]
  rw [putBits_fits h6, State.appended_afterSet, State.appended_appended]

/-- Everything a byte write can do (R128): one byte, or none with Overflow. -/
theorem putByte_run (b : Byte) (s : State) :
    putByte b s =
      if s.ovf then .error .overflow s
      else if s.ocap ≤ s.opos then .error .overflow { s with ovf := true, need := s.ocap + 1 }
      else .ok () (s.written [b]) := rfl

/-- A byte write that has room (R128). -/
theorem putByte_room {b : Byte} {s : State} (h : s.room 1) : putByte b s = .ok () (s.written [b]) := by
  rw [putByte_run, if_neg (by simp [h.1]), if_neg (by have := h.2; omega)]

/-- A byte write without room ends the command with the state R128 gives. -/
theorem putByte_full {b : Byte} {s : State} (h : ¬ s.room 1) :
    ∃ t, putByte b s = .error .overflow t ∧ { t with status := .overflow } = s.byteRejected := by
  rw [putByte_run]
  unfold State.byteRejected
  cases ho : s.ovf
  · rw [if_neg (by simp), if_pos (by simp [State.room, ho] at h; omega)]
    exact ⟨_, rfl, by simp⟩
  · exact ⟨s, by simp, by simp [ho]⟩

/-- Everything the bit reader can do (R124): it never raises. -/
theorem getBit_run (s : State) :
    getBit s = .ok (paddedBit s s.roff) (s.afterRead 1) := by
  unfold getBit paddedBit
  split
  · rename_i h
    simp only [EStateM.Result.ok.injEq, true_and]
    unfold State.afterRead
    congr
    simp; omega
  · rename_i h
    simp only [EStateM.Result.ok.injEq, true_and]
    unfold State.afterRead
    congr
    simp; omega

/-- The end of a command whose pseudocode raised nothing (R340). -/
theorem endCommand_ok {body : Cmd Unit} {s t : State} (h : body s = .ok () t) :
    endCommand body s = { t with status := .ok } := by
  unfold endCommand; rw [h]

/-- The end of a command that raised a status: the state is the one at that point (R341, R351). -/
theorem endCommand_error {body : Cmd Unit} {s t : State} {e : Status} (h : body s = .error e t) :
    endCommand body s = { t with status := e } := by
  unfold endCommand; rw [h]

/-- A command in its mode runs its own rule (R348). -/
theorem modeCommand_run {m : Mode} {body : Cmd Unit} {s : State} (hr : s.ready = true) (hm : s.mode = m) :
    modeCommand m body s = .next (endCommand body s) := by
  unfold modeCommand endCommand; simp [hr, hm]

/-- A command before `INIT` or in the other mode is refused (R347). -/
theorem modeCommand_refused {m : Mode} {body : Cmd Unit} {s : State} (h : ¬ (s.ready = true ∧ s.mode = m)) :
    modeCommand m body s = .next { s with status := .refused } := by
  unfold modeCommand endCommand
  by_cases hr : s.ready = true
  · have hm : ¬ s.mode = m := fun hm => h ⟨hr, hm⟩
    simp [hr, hm]
  · simp [hr]

end Sys2Proof.Machine
end

