-- ==== Sys2Proof/Laws/Emits.lean ====
section
/-!
SUPPORT. A command of several appends, one append at a time: what each append leaves to the rest of the command, and what the
whole leaves where all of it fits.
-/

namespace Sys2Proof.Machine

@[simp] theorem State.emits_nil (fin : State → State) (s : State) : s.emits fin [] = { fin s with status := .ok } := rfl

/-- An append that fits goes on with the rest (R65, R230). -/
theorem State.emits_cons_fits {fin : State → State} {s : State} {a : BitAppend} (as : List BitAppend)
    (h : s.fits a.bits.length) :
    s.emits fin (a :: as) = ({ s.appended a.bits with curSet := a.set, upper := a.upper } : State).emits fin as :=
  if_pos h

/-- An append that does not fit ends the command (R65, R230). -/
theorem State.emits_cons_unfit {fin : State → State} {s : State} {a : BitAppend} (as : List BitAppend)
    (h : ¬ s.fits a.bits.length) : s.emits fin (a :: as) = s.overflowed a.bits.length :=
  if_neg h

@[simp] theorem appendBits_nil : appendBits [] = [] := rfl

@[simp] theorem appendBits_cons (a : BitAppend) (as : List BitAppend) :
    appendBits (a :: as) = a.bits ++ appendBits as := rfl

@[simp] theorem appendBits_append (as bs : List BitAppend) : appendBits (as ++ bs) = appendBits as ++ appendBits bs :=
  List.flatMap_append

/-- The bits of the appends of `if SET != h: EmitSW(h)` (R154, R233). -/
@[simp] theorem appendBits_switchAppend (s : State) (cur : Resting) (h : SetId) :
    appendBits (switchAppend s cur h) = switchUnless s cur h := by
  unfold switchAppend switchUnless; split <;> simp [appendIn]

/-- An append and what follows it, as appends: whoever proves what follows from the state after the append has proved the
whole (R65, R230). -/
theorem endCommand_putBits {fin : State → State} {s : State} {a : BitAppend} {as : List BitAppend} {rest : Unit → Cmd Unit}
    (h : s.fits a.bits.length →
      endCommand (rest ()) (s.appended a.bits) =
        ({ s.appended a.bits with curSet := a.set, upper := a.upper } : State).emits fin as) :
    endCommand (putBits a.bits >>= rest) s = s.emits fin (a :: as) := by
  by_cases hf : s.fits a.bits.length
  · rw [State.emits_cons_fits as hf, ← h hf]
    simp only [endCommand, Cmd.bind_run, putBits_fits hf]
  · obtain ⟨t, h1, h2⟩ := putBits_unfit hf
    rw [State.emits_cons_unfit as hf, ← h2]
    exact endCommand_error (by simp only [Cmd.bind_run, h1])

/-- An append to a state whose `SET` and `UPPER` were written since an append is one append of both strings (R121). -/
theorem State.appended_afterModes (s : State) (c d : Resting) (u v : Bool) (a b : BitStr) :
    ({ ({ s.appended a with curSet := c, upper := u } : State).appended b with curSet := d, upper := v } : State) =
      { s.appended (a ++ b) with curSet := d, upper := v } := by
  rw [← State.appended_appended]; rfl

/-- Where all of the appends fit, they are one append, after which `SET` and `UPPER` are the last one's (R65, R230). -/
theorem State.emits_fits {fin : State → State} (as : List BitAppend) (a : BitAppend) :
    ∀ {s : State}, s.fits (appendBits (as ++ [a])).length →
      s.emits fin (as ++ [a]) =
        { fin { s.appended (appendBits (as ++ [a])) with curSet := a.set, upper := a.upper } with status := .ok } := by
  induction as with
  | nil =>
    intro s h
    simp only [List.nil_append, appendBits_cons, appendBits_nil, List.append_nil] at *
    exact State.emits_cons_fits [] h
  | cons b as ih =>
    intro s h
    simp only [List.cons_append, appendBits_cons] at *
    obtain ⟨h1, h2⟩ := State.fits_split h
    have h3 : ({ s.appended b.bits with curSet := b.set, upper := b.upper } : State).fits
      (appendBits (as ++ [a])).length := h2
    rw [State.emits_cons_fits _ h1, ih h3, State.appended_afterModes]

end Sys2Proof.Machine
end

