-- ==== Sys2Proof/Laws/Memory.lean ====
section
/-!
SUPPORT. Every operation on a memory keeps its canonical form, and the memories after reset have it.
-/

namespace Sys2Proof.Machine

/-- A memory above a bound is above a lower one. -/
theorem Memory.above_mono {m : Memory} {a b : Nat} (h : a ≤ b) (hm : Memory.above b m = true) :
    Memory.above a m = true := by
  simp only [Memory.above, List.all_eq_true, decide_eq_true_eq] at *
  exact fun c hc => Nat.lt_of_le_of_lt h (hm c hc)

/-- One cell in front of a canonical memory above it. -/
theorem Memory.cons_wf {m : Memory} {a : Nat} {v : Byte} (hm : m.wf = true) (ha : Memory.above a m = true) :
    Memory.wf (Memory.cons a v m) = true := by
  unfold Memory.cons
  split
  · exact hm
  · simp [Memory.wf, hm, ha, ‹¬ v = unwritten›]

/-- A cell in front keeps a memory above a bound. -/
theorem Memory.cons_above {m : Memory} {lo a : Nat} {v : Byte} (hm : Memory.above lo m = true) (ha : lo < a) :
    Memory.above lo (Memory.cons a v m) = true := by
  unfold Memory.cons
  split
  · exact hm
  · simp only [Memory.above, List.all_cons, Bool.and_eq_true, decide_eq_true_eq] at *
    exact ⟨ha, hm⟩

/-- A write above a bound keeps a memory above it. -/
theorem Memory.write_above {lo a : Nat} {v : Byte} (ha : lo < a) :
    ∀ {m : Memory}, Memory.above lo m = true → Memory.above lo (m.write a v) = true
  | [], h => Memory.cons_above h ha
  | (b, w) :: m, h => by
    have hb : lo < b ∧ Memory.above lo m = true := by simpa [Memory.above] using h
    unfold Memory.write
    split
    · exact Memory.cons_above h ha
    · split
      · exact Memory.cons_above hb.2 ha
      · have := Memory.write_above ha hb.2 (v := v)
        simp only [Memory.above, List.all_cons, Bool.and_eq_true, decide_eq_true_eq] at this ⊢
        exact ⟨hb.1, this⟩

/-- A write keeps the canonical form. -/
theorem Memory.write_wf {a : Nat} {v : Byte} : ∀ {m : Memory}, m.wf = true → (m.write a v).wf = true
  | [], _ => Memory.cons_wf rfl rfl
  | (b, w) :: m, h => by
    have hb : Memory.above b m = true ∧ w ≠ unwritten ∧ Memory.wf m = true := by
      simpa [Memory.wf, and_assoc] using h
    unfold Memory.write
    split
    · rename_i hab
      refine Memory.cons_wf h ?_
      have := Memory.above_mono (Nat.le_of_lt hab) hb.1
      simp only [Memory.above, List.all_cons, Bool.and_eq_true, decide_eq_true_eq] at this ⊢
      exact ⟨hab, this⟩
    · split
      · rename_i hab
        subst hab
        exact Memory.cons_wf hb.2.2 hb.1
      · have h1 := Memory.write_wf (a := a) (v := v) hb.2.2
        have h2 := Memory.write_above (v := v) (lo := b) (a := a) (by omega) hb.1
        simp [Memory.wf, h1, h2, hb.2.1]

/-- One bit of an append keeps the canonical form. -/
theorem Memory.putBit_wf {m : Memory} {o : Nat} {v : Bool} (h : m.wf = true) : (m.putBit o v).wf = true := by
  unfold Memory.putBit
  split
  · exact Memory.write_wf (Memory.write_wf h)
  · exact Memory.write_wf h

/-- An append keeps the canonical form. -/
theorem Memory.putBits_wf {m : Memory} {o : Nat} {bits : BitStr} (h : m.wf = true) : (m.putBits o bits).wf = true := by
  induction bits generalizing m o with
  | nil => exact h
  | cons b bs ih => exact ih (Memory.putBit_wf h)

/-- A byte string written keeps the canonical form. -/
theorem Memory.fill_wf {m : Memory} {a : Nat} {bs : ByteStr} (h : m.wf = true) : (m.fill a bs).wf = true := by
  induction bs generalizing m a with
  | nil => exact h
  | cons b bs ih => exact ih (Memory.write_wf h)

/-- The memories after reset are in canonical form. -/
theorem State.reset_memories_wf : State.reset.inp.wf = true ∧ State.reset.out.wf = true := ⟨rfl, rfl⟩

end Sys2Proof.Machine
end

