-- ==== Sys2Proof/Laws/PerInstr.lean ====
section
/-!
SUPPORT. A statement about every instruction as syntax, one lemma per constructor: a well-formed host command is what its
command number decodes to (R90, R91).
-/

namespace Sys2Proof.Laws

open Machine

/-- A number that R90 does not list decodes to the illegal command (R91). -/
theorem unlisted_decodes : ∀ n : BitVec 8, unlisted n = true → decodeCommand n = .illegal n := by decide

/-- A well-formed host command is what its number decodes to; a wire form has no number (R90). -/
def CommandNumber.Statement (i : Instr) : Prop :=
  ∀ (c : WireCtx) (n : BitVec 8), commandNumber i = some n → wellFormed c i = true → decodeCommand n = i

theorem CommandNumber.init : CommandNumber.Statement .init :=
  fun _ _ h _ => (Option.some.inj h) ▸ rfl

theorem CommandNumber.bsAppend : CommandNumber.Statement .bsAppend :=
  fun _ _ h _ => (Option.some.inj h) ▸ rfl

theorem CommandNumber.bsRdbit : CommandNumber.Statement .bsRdbit :=
  fun _ _ h _ => (Option.some.inj h) ▸ rfl

theorem CommandNumber.bsRd8 : CommandNumber.Statement .bsRd8 :=
  fun _ _ h _ => (Option.some.inj h) ▸ rfl

theorem CommandNumber.bsRdint : CommandNumber.Statement .bsRdint :=
  fun _ _ h _ => (Option.some.inj h) ▸ rfl

theorem CommandNumber.outPutb : CommandNumber.Statement .outPutb :=
  fun _ _ h _ => (Option.some.inj h) ▸ rfl

theorem CommandNumber.pcClass : CommandNumber.Statement .pcClass :=
  fun _ _ h _ => (Option.some.inj h) ▸ rfl

theorem CommandNumber.pcSw : CommandNumber.Statement .pcSw :=
  fun _ _ h _ => (Option.some.inj h) ▸ rfl

theorem CommandNumber.pcLit : CommandNumber.Statement .pcLit :=
  fun _ _ h _ => (Option.some.inj h) ▸ rfl

theorem CommandNumber.pcCtrl : CommandNumber.Statement .pcCtrl :=
  fun _ _ h _ => (Option.some.inj h) ▸ rfl

theorem CommandNumber.pcUpper : CommandNumber.Statement .pcUpper :=
  fun _ _ h _ => (Option.some.inj h) ▸ rfl

theorem CommandNumber.pcEnterd : CommandNumber.Statement .pcEnterd :=
  fun _ _ h _ => (Option.some.inj h) ▸ rfl

theorem CommandNumber.pcTerm : CommandNumber.Statement .pcTerm :=
  fun _ _ h _ => (Option.some.inj h) ▸ rfl

theorem CommandNumber.pcRdh : CommandNumber.Statement .pcRdh :=
  fun _ _ h _ => (Option.some.inj h) ▸ rfl

theorem CommandNumber.pcRdv : CommandNumber.Statement .pcRdv :=
  fun _ _ h _ => (Option.some.inj h) ▸ rfl

theorem CommandNumber.stepEnc : CommandNumber.Statement .stepEnc :=
  fun _ _ h _ => (Option.some.inj h) ▸ rfl

theorem CommandNumber.stepDec : CommandNumber.Statement .stepDec :=
  fun _ _ h _ => (Option.some.inj h) ▸ rfl

theorem CommandNumber.cntEnc : CommandNumber.Statement .cntEnc :=
  fun _ _ h _ => (Option.some.inj h) ▸ rfl

theorem CommandNumber.cntDec : CommandNumber.Statement .cntDec :=
  fun _ _ h _ => (Option.some.inj h) ▸ rfl

theorem CommandNumber.udlEnc : CommandNumber.Statement .udlEnc :=
  fun _ _ h _ => (Option.some.inj h) ▸ rfl

theorem CommandNumber.udlDec : CommandNumber.Statement .udlDec :=
  fun _ _ h _ => (Option.some.inj h) ▸ rfl

theorem CommandNumber.udlEsc : CommandNumber.Statement .udlEsc :=
  fun _ _ h _ => (Option.some.inj h) ▸ rfl

theorem CommandNumber.tkBackref : CommandNumber.Statement .tkBackref :=
  fun _ _ h _ => (Option.some.inj h) ▸ rfl

theorem CommandNumber.tkRepeat : CommandNumber.Statement .tkRepeat :=
  fun _ _ h _ => (Option.some.inj h) ▸ rfl

theorem CommandNumber.tkHex : CommandNumber.Statement .tkHex :=
  fun _ _ h _ => (Option.some.inj h) ▸ rfl

theorem CommandNumber.tkGuid : CommandNumber.Statement .tkGuid :=
  fun _ _ h _ => (Option.some.inj h) ▸ rfl

theorem CommandNumber.tkTmpl : CommandNumber.Statement .tkTmpl :=
  fun _ _ h _ => (Option.some.inj h) ▸ rfl

theorem CommandNumber.tkFreq : CommandNumber.Statement .tkFreq :=
  fun _ _ h _ => (Option.some.inj h) ▸ rfl

theorem CommandNumber.tkBin : CommandNumber.Statement .tkBin :=
  fun _ _ h _ => (Option.some.inj h) ▸ rfl

theorem CommandNumber.tkUni1 : CommandNumber.Statement .tkUni1 :=
  fun _ _ h _ => (Option.some.inj h) ▸ rfl

theorem CommandNumber.smFind : CommandNumber.Statement .smFind :=
  fun _ _ h _ => (Option.some.inj h) ▸ rfl

theorem CommandNumber.decStep : CommandNumber.Statement .decStep :=
  fun _ _ h _ => (Option.some.inj h) ▸ rfl

theorem CommandNumber.decRun : CommandNumber.Statement .decRun :=
  fun _ _ h _ => (Option.some.inj h) ▸ rfl

theorem CommandNumber.illegal (n : BitVec 8) : CommandNumber.Statement (.illegal n) := by
  intro c k h hw
  simp only [commandNumber, Option.some.injEq] at h
  subst h
  exact unlisted_decodes n (by simpa [wellFormed, inContext, operandsFit] using hw)

theorem CommandNumber.magic : CommandNumber.Statement .magic :=
  fun _ _ h _ => nomatch h

theorem CommandNumber.hAlpha : CommandNumber.Statement .hAlpha :=
  fun _ _ h _ => nomatch h

theorem CommandNumber.hSym : CommandNumber.Statement .hSym :=
  fun _ _ h _ => nomatch h

theorem CommandNumber.hNum : CommandNumber.Statement .hNum :=
  fun _ _ h _ => nomatch h

theorem CommandNumber.hDict : CommandNumber.Statement .hDict :=
  fun _ _ h _ => nomatch h

theorem CommandNumber.hDelta : CommandNumber.Statement .hDelta :=
  fun _ _ h _ => nomatch h

theorem CommandNumber.v0 : CommandNumber.Statement .v0 :=
  fun _ _ h _ => nomatch h

theorem CommandNumber.v1 : CommandNumber.Statement .v1 :=
  fun _ _ h _ => nomatch h

theorem CommandNumber.v2 : CommandNumber.Statement .v2 :=
  fun _ _ h _ => nomatch h

theorem CommandNumber.v3 : CommandNumber.Statement .v3 :=
  fun _ _ h _ => nomatch h

theorem CommandNumber.v4 : CommandNumber.Statement .v4 :=
  fun _ _ h _ => nomatch h

theorem CommandNumber.v5 : CommandNumber.Statement .v5 :=
  fun _ _ h _ => nomatch h

theorem CommandNumber.v6 : CommandNumber.Statement .v6 :=
  fun _ _ h _ => nomatch h

theorem CommandNumber.v7 : CommandNumber.Statement .v7 :=
  fun _ _ h _ => nomatch h

theorem CommandNumber.v8 : CommandNumber.Statement .v8 :=
  fun _ _ h _ => nomatch h

theorem CommandNumber.v9 : CommandNumber.Statement .v9 :=
  fun _ _ h _ => nomatch h

theorem CommandNumber.v10 : CommandNumber.Statement .v10 :=
  fun _ _ h _ => nomatch h

theorem CommandNumber.v11 : CommandNumber.Statement .v11 :=
  fun _ _ h _ => nomatch h

theorem CommandNumber.v12 : CommandNumber.Statement .v12 :=
  fun _ _ h _ => nomatch h

theorem CommandNumber.v13 : CommandNumber.Statement .v13 :=
  fun _ _ h _ => nomatch h

theorem CommandNumber.v14 : CommandNumber.Statement .v14 :=
  fun _ _ h _ => nomatch h

theorem CommandNumber.v15 : CommandNumber.Statement .v15 :=
  fun _ _ h _ => nomatch h

theorem CommandNumber.v16 : CommandNumber.Statement .v16 :=
  fun _ _ h _ => nomatch h

theorem CommandNumber.v17 : CommandNumber.Statement .v17 :=
  fun _ _ h _ => nomatch h

theorem CommandNumber.v18 : CommandNumber.Statement .v18 :=
  fun _ _ h _ => nomatch h

theorem CommandNumber.v19 : CommandNumber.Statement .v19 :=
  fun _ _ h _ => nomatch h

theorem CommandNumber.v20 : CommandNumber.Statement .v20 :=
  fun _ _ h _ => nomatch h

theorem CommandNumber.v21 : CommandNumber.Statement .v21 :=
  fun _ _ h _ => nomatch h

theorem CommandNumber.v22 : CommandNumber.Statement .v22 :=
  fun _ _ h _ => nomatch h

theorem CommandNumber.v23 : CommandNumber.Statement .v23 :=
  fun _ _ h _ => nomatch h

theorem CommandNumber.v24 : CommandNumber.Statement .v24 :=
  fun _ _ h _ => nomatch h

theorem CommandNumber.v25 : CommandNumber.Statement .v25 :=
  fun _ _ h _ => nomatch h

theorem CommandNumber.v26 : CommandNumber.Statement .v26 :=
  fun _ _ h _ => nomatch h

theorem CommandNumber.v27 : CommandNumber.Statement .v27 :=
  fun _ _ h _ => nomatch h

theorem CommandNumber.step4_0 : CommandNumber.Statement .step4_0 :=
  fun _ _ h _ => nomatch h

theorem CommandNumber.step4_1 : CommandNumber.Statement .step4_1 :=
  fun _ _ h _ => nomatch h

theorem CommandNumber.step4_2 : CommandNumber.Statement .step4_2 :=
  fun _ _ h _ => nomatch h

theorem CommandNumber.step4_3 : CommandNumber.Statement .step4_3 :=
  fun _ _ h _ => nomatch h

theorem CommandNumber.step4_4 : CommandNumber.Statement .step4_4 :=
  fun _ _ h _ => nomatch h

theorem CommandNumber.step5_0 : CommandNumber.Statement .step5_0 :=
  fun _ _ h _ => nomatch h

theorem CommandNumber.step5_1 : CommandNumber.Statement .step5_1 :=
  fun _ _ h _ => nomatch h

theorem CommandNumber.step5_2 : CommandNumber.Statement .step5_2 :=
  fun _ _ h _ => nomatch h

theorem CommandNumber.step5_3 : CommandNumber.Statement .step5_3 :=
  fun _ _ h _ => nomatch h

theorem CommandNumber.step5_4 : CommandNumber.Statement .step5_4 :=
  fun _ _ h _ => nomatch h

theorem CommandNumber.step5_5 : CommandNumber.Statement .step5_5 :=
  fun _ _ h _ => nomatch h

theorem CommandNumber.cntTier0 (f : BitVec 2) : CommandNumber.Statement (.cntTier0 f) :=
  fun _ _ h _ => nomatch h

theorem CommandNumber.cntTier1 (f : BitVec 4) : CommandNumber.Statement (.cntTier1 f) :=
  fun _ _ h _ => nomatch h

theorem CommandNumber.cntTier2 (f : BitVec 7) : CommandNumber.Statement (.cntTier2 f) :=
  fun _ _ h _ => nomatch h

theorem CommandNumber.cntTier3 (f : BitVec 11) : CommandNumber.Statement (.cntTier3 f) :=
  fun _ _ h _ => nomatch h

theorem CommandNumber.cntTier4 (f : BitVec 16) : CommandNumber.Statement (.cntTier4 f) :=
  fun _ _ h _ => nomatch h

theorem CommandNumber.dltTier0 (neg : Bool) (m : BitVec 6) : CommandNumber.Statement (.dltTier0 neg m) :=
  fun _ _ h _ => nomatch h

theorem CommandNumber.dltTier1 (neg : Bool) (m : BitVec 12) : CommandNumber.Statement (.dltTier1 neg m) :=
  fun _ _ h _ => nomatch h

theorem CommandNumber.dltTier2 (neg : Bool) (m : BitVec 14) : CommandNumber.Statement (.dltTier2 neg m) :=
  fun _ _ h _ => nomatch h

theorem CommandNumber.dltTier3 (neg : Bool) (m : BitVec 16) : CommandNumber.Statement (.dltTier3 neg m) :=
  fun _ _ h _ => nomatch h

theorem CommandNumber.dltTier4 (neg : Bool) (m : BitVec 21) : CommandNumber.Statement (.dltTier4 neg m) :=
  fun _ _ h _ => nomatch h

theorem CommandNumber.desc0 : CommandNumber.Statement .desc0 :=
  fun _ _ h _ => nomatch h

theorem CommandNumber.desc1 : CommandNumber.Statement .desc1 :=
  fun _ _ h _ => nomatch h

theorem CommandNumber.desc2 : CommandNumber.Statement .desc2 :=
  fun _ _ h _ => nomatch h

theorem CommandNumber.desc3 : CommandNumber.Statement .desc3 :=
  fun _ _ h _ => nomatch h

theorem CommandNumber.desc4 : CommandNumber.Statement .desc4 :=
  fun _ _ h _ => nomatch h

theorem CommandNumber.symbol (v : Fin 28) : CommandNumber.Statement (.symbol v) :=
  fun _ _ h _ => nomatch h

theorem CommandNumber.swResting (h : SetId) : CommandNumber.Statement (.swResting h) :=
  fun _ _ h _ => nomatch h

theorem CommandNumber.swDelta (h : SetId) : CommandNumber.Statement (.swDelta h) :=
  fun _ _ h _ => nomatch h

theorem CommandNumber.shift (v : Fin 28) : CommandNumber.Statement (.shift v) :=
  fun _ _ h _ => nomatch h

theorem CommandNumber.upperOn : CommandNumber.Statement .upperOn :=
  fun _ _ h _ => nomatch h

theorem CommandNumber.upperOff : CommandNumber.Statement .upperOff :=
  fun _ _ h _ => nomatch h

theorem CommandNumber.toAlpha : CommandNumber.Statement .toAlpha :=
  fun _ _ h _ => nomatch h

theorem CommandNumber.enterd : CommandNumber.Statement .enterd :=
  fun _ _ h _ => nomatch h

theorem CommandNumber.symSymbol (v : Fin 28) : CommandNumber.Statement (.symSymbol v) :=
  fun _ _ h _ => nomatch h

theorem CommandNumber.numSymbol (v : Fin 28) : CommandNumber.Statement (.numSymbol v) :=
  fun _ _ h _ => nomatch h

theorem CommandNumber.backref0 (len dist : Nat) : CommandNumber.Statement (.backref0 len dist) :=
  fun _ _ h _ => nomatch h

theorem CommandNumber.backref1 (len x line : Nat) : CommandNumber.Statement (.backref1 len x line) :=
  fun _ _ h _ => nomatch h

theorem CommandNumber.uni1 (d : DeltaTok) : CommandNumber.Statement (.uni1 d) :=
  fun _ _ h _ => nomatch h

theorem CommandNumber.rpt (r : Nat) : CommandNumber.Statement (.rpt r) :=
  fun _ _ h _ => nomatch h

theorem CommandNumber.term : CommandNumber.Statement .term :=
  fun _ _ h _ => nomatch h

theorem CommandNumber.pad : CommandNumber.Statement .pad :=
  fun _ _ h _ => nomatch h

theorem CommandNumber.esc0Template (idx : Fin 5) (rem : Nat) (digits : List Nat) : CommandNumber.Statement (.esc0Template idx rem digits) :=
  fun _ _ h _ => nomatch h

theorem CommandNumber.esc1HexLower (ns : List (BitVec 4)) : CommandNumber.Statement (.esc1HexLower ns) :=
  fun _ _ h _ => nomatch h

theorem CommandNumber.esc2GuidLower (ns : List (BitVec 4)) : CommandNumber.Statement (.esc2GuidLower ns) :=
  fun _ _ h _ => nomatch h

theorem CommandNumber.esc3HexUpper (ns : List (BitVec 4)) : CommandNumber.Statement (.esc3HexUpper ns) :=
  fun _ _ h _ => nomatch h

theorem CommandNumber.esc4GuidUpper (ns : List (BitVec 4)) : CommandNumber.Statement (.esc4GuidUpper ns) :=
  fun _ _ h _ => nomatch h

theorem CommandNumber.esc5Binary (bs : ByteStr) : CommandNumber.Statement (.esc5Binary bs) :=
  fun _ _ h _ => nomatch h

theorem CommandNumber.freq0 : CommandNumber.Statement .freq0 :=
  fun _ _ h _ => nomatch h

theorem CommandNumber.freq1 : CommandNumber.Statement .freq1 :=
  fun _ _ h _ => nomatch h

theorem CommandNumber.freq2 : CommandNumber.Statement .freq2 :=
  fun _ _ h _ => nomatch h

theorem CommandNumber.freq3 : CommandNumber.Statement .freq3 :=
  fun _ _ h _ => nomatch h

theorem CommandNumber.freq4 : CommandNumber.Statement .freq4 :=
  fun _ _ h _ => nomatch h

theorem CommandNumber.freq5 : CommandNumber.Statement .freq5 :=
  fun _ _ h _ => nomatch h

theorem CommandNumber.ctrlLf : CommandNumber.Statement .ctrlLf :=
  fun _ _ h _ => nomatch h

theorem CommandNumber.ctrlCrlf : CommandNumber.Statement .ctrlCrlf :=
  fun _ _ h _ => nomatch h

theorem CommandNumber.ctrlTab : CommandNumber.Statement .ctrlTab :=
  fun _ _ h _ => nomatch h

theorem CommandNumber.ctrlCr : CommandNumber.Statement .ctrlCr :=
  fun _ _ h _ => nomatch h

end Sys2Proof.Laws
end

