-- ==== Sys2Proof/Laws/Preset.lean ====
section
/-!
SUPPORT. What the check of a Preset gives: the bounds on its codes and templates.
-/

namespace Sys2Proof

open Sys2Proof.Machine

/-- The ranges are among what `INIT` checks (log entry 6). -/
theorem Preset.wf_ranges {p : Preset} (h : p.wf = true) : p.wfRanges = true := by
  unfold Preset.wf at h; simp only [Bool.and_eq_true] at h; exact h.2

/-- Every horizontal code of a Preset that `INIT` accepts has at most 8 bits (R140, log entry 6). -/
theorem Preset.wf_short {p : Preset} (h : p.wf = true) : horizontalShort p := by
  have hr := Preset.wf_ranges h
  unfold Preset.wfRanges at hr
  simp only [Bool.and_eq_true, List.all_eq_true, decide_eq_true_eq] at hr
  have hm : ∀ (k : Nat) (hk : k < 5), p.hcode[k].length ≤ 8 := fun k hk => hr.1.1.1 _ (by simp)
  intro x
  cases x <;> exact hm _ _

/-- Every template of a Preset that `INIT` accepts has a length that a count holds (R248, log entry 6). -/
theorem Preset.wf_template {p : Preset} (h : p.wf = true) {i : Fin 5} {t : ByteStr} (ht : p.tmpl[i] = some t) :
    t.length < Config.countLimit := by
  have hr := Preset.wf_ranges h
  unfold Preset.wfRanges at hr
  simp only [Bool.and_eq_true, List.all_eq_true] at hr
  have hm := hr.2 p.tmpl[i] (by simp)
  rw [ht] at hm
  simpa using hm

/-- Every frequent substring of a Preset that `INIT` accepts has a byte (R140, log entry 6). -/
theorem Preset.wf_frequent {p : Preset} (h : p.wf = true) {i : Fin 6} {bs : ByteStr} (hb : p.freq[i] = some bs) :
    bs ≠ [] := by
  have hr := Preset.wf_ranges h
  unfold Preset.wfRanges at hr
  simp only [Bool.and_eq_true, List.all_eq_true] at hr
  have hm := hr.1.2 p.freq[i] (by simp)
  rw [hb] at hm
  simpa using hm

end Sys2Proof
end

