-- ==== Sys2Proof/Tests/Slice0.lean ====
section
/-!
SUPPORT. Tests. Expected results come from the spec: its encoding tables (R90 to R105, R209), its vectors (T1 to T125 of
spec/95_test_vectors.md), or hand calculation from its rules. The last part shows, for every statement with hypotheses,
states and operands that meet them, each clause at a boundary where it has one.
-/

namespace Sys2Proof.Tests

set_option Elab.async false

open Machine

/-- Bits written out, first bit first. -/
def w (l : List Nat) : BitStr := l.map (fun n => n == 1)

/-- Bytes written out. -/
def bytes (l : List Nat) : ByteStr := l.map (BitVec.ofNat 8)

/-- The context after `INIT` with the default Preset, in another set. -/
def ctx (r : Resting) : WireCtx := { initialCtx Preset.default with set := r }

/-- In ALPHA with all-uppercase mode on. -/
def ctxUpper : WireCtx := { ctx .alpha with upper := true }

/-- A block after `INIT` in ENC mode, `OCAP` = 64, no marker. -/
def encS : State := { State.reset with ready := true, mode := .enc, ocap := 64 }

/-- A block after `INIT` in DEC mode over some bytes of IN, `OCAP` = 64, no marker. -/
def decS (l : List Nat) : State :=
  { State.reset with
    ready := true, mode := .dec, ilen := l.length, ocap := 64, inp := Memory.fill [] 0 (bytes l) }

/-- A block after `INIT` in ENC mode over some bytes of IN. -/
def encIn (l : List Nat) : State := { encS with ilen := l.length, inp := Memory.fill [] 0 (bytes l) }

/-- The state an instruction leaves. -/
def after (i : Instr) (s : State) : State :=
  match exec i s with
  | .next t => t
  | _ => s

/-- The bits appended in OUT from an offset on, up to `WOFF`. -/
def outBits (s : State) (o : Nat) : BitStr := (List.range (s.woff - o)).map (fun k => s.out.bit (o + k))

/-- The plaintext written so far. -/
def plain (s : State) : ByteStr := s.out.slice 0 s.opos

/-- A well-formed Preset that leaves out what R141 does not demand: no LF in SYM, no space and no RPT in NUM, no FREQ(3);
its horizontal and vertical codes are not complete ("001" begins no code). -/
def sparse : Preset :=
  { Preset.default with
    hcode := Preset.default.hcode.set 0 (w [0, 0, 0])
    vcode := Preset.default.vcode.set 0 (w [0, 0, 0])
    sym := Preset.default.sym.set 7 .unassigned
    num := ((Preset.default.num.set 17 .unassigned).set 26 .unassigned).set 23 .unassigned }

theorem default_wf : Preset.default.wf = true := by decide +kernel

theorem sparse_wf : sparse.wf = true := by decide +kernel

/-! ## Well-formedness: an ill-formed term for each check -/

theorem test_illformed_illegal_listed :
    wellFormed (ctx .alpha) (.illegal 0x71) = false ∧
    wellFormed (ctx .alpha) (.illegal 0x72) = true := by
  decide +kernel

theorem test_illformed_symbol_has_its_own_row :
    wellFormed (ctx .num) (.symbol 27) = false ∧
    wellFormed (ctx .num) (.symbol 26) = false ∧
    wellFormed (ctx .alpha) (.symbol 27) = true := by
  decide +kernel

theorem test_illformed_symbol_switch_code :
    wellFormed (ctx .alpha) (.symbol 0) = false ∧
    wellFormed (ctx .delta) (.symbol 1) = false := by
  decide +kernel

theorem test_illformed_symSymbol_special :
    wellFormed (ctx .alpha) (.symSymbol 7) = false ∧
    wellFormed (ctx .alpha) (.symSymbol 25) = false := by
  decide +kernel

theorem test_illformed_numSymbol_escape :
    wellFormed (ctx .num) (.numSymbol 0) = false ∧
    wellFormed (ctx .alpha) (.numSymbol 26) = false := by
  decide +kernel

theorem test_illformed_shift_below_two :
    wellFormed (ctx .alpha) (.shift 1) = false ∧
    wellFormed ctxUpper (.shift 2) = false := by
  decide +kernel

theorem test_illformed_sets :
    wellFormed (ctx .delta) (.swResting .alpha) = false ∧
    wellFormed (ctx .num) (.swDelta .alpha) = false ∧
    wellFormed (ctx .alpha) .toAlpha = false ∧
    wellFormed ctxUpper .upperOn = false ∧
    wellFormed (ctx .alpha) .upperOff = false ∧
    wellFormed (ctx .num) .enterd = false := by
  decide +kernel

theorem test_illformed_backref_length :
    wellFormed (ctx .alpha) (.backref0 4 5) = false ∧
    wellFormed (ctx .alpha) (.backref0 67737 5) = false := by
  decide +kernel

theorem test_illformed_backref_distance :
    wellFormed (ctx .alpha) (.backref0 5 3) = false ∧
    wellFormed (ctx .alpha) (.backref0 5 67736) = false := by
  decide +kernel

theorem test_illformed_backref_history :
    wellFormed (ctx .alpha) (.backref1 5 4 0) = false ∧
    wellFormed { ctx .alpha with lhen := true } (.backref0 5 4) = false ∧
    wellFormed { ctx .alpha with lhen := true } (.backref1 5 67732 0) = false ∧
    wellFormed { ctx .alpha with lhen := true } (.backref1 5 0 67732) = false := by
  decide +kernel

theorem test_illformed_uni1_switch :
    wellFormed (ctx .alpha) (.uni1 (.escape 1)) = false ∧
    wellFormed (ctx .delta) (.uni1 (.tier0 false 0)) = false := by
  decide +kernel

theorem test_illformed_repeat_below_four :
    wellFormed (ctx .alpha) (.rpt 3) = false ∧
    wellFormed (ctx .alpha) (.rpt 67736) = false ∧
    wellFormed { ctx .alpha with preset := sparse } (.rpt 4) = false := by
  decide +kernel

theorem test_illformed_template :
    wellFormed (ctx .num) (.esc0Template 4 0 []) = false ∧
    wellFormed (ctx .num) (.esc0Template 3 9 []) = false ∧
    wellFormed (ctx .num) (.esc0Template 3 7 [4]) = false ∧
    wellFormed (ctx .num) (.esc0Template 3 7 []) = false := by
  decide +kernel

theorem test_illformed_hex_empty :
    wellFormed (ctx .num) (.esc1HexLower []) = false ∧
    wellFormed (ctx .num) (.esc3HexUpper []) = false := by
  decide +kernel

theorem test_illformed_guid_length :
    wellFormed (ctx .num) (.esc2GuidLower [1]) = false ∧
    wellFormed (ctx .num) (.esc4GuidUpper (List.replicate 33 0)) = false := by
  decide +kernel

theorem test_illformed_binary_empty :
    wellFormed (ctx .num) (.esc5Binary []) = false := by
  decide +kernel

theorem test_illformed_freq_without_place :
    wellFormed { ctx .num with preset := sparse } .freq3 = false ∧
    wellFormed (ctx .num) .freq3 = true := by
  decide +kernel

theorem test_illformed_ctrl_without_place :
    wellFormed { ctx .num with preset := sparse } .ctrlLf = false ∧
    wellFormed (ctx .num) .ctrlLf = true := by
  decide +kernel

/-! ## Decoding: words written out from the spec's encoding tables -/

/-- R90. -/
theorem test_decode_lifecycle_and_bits :
    decode .command (ctx .alpha) (w [0, 0, 0, 0, 0, 0, 0, 0]) = .ok (.init, []) ∧
    decode .command (ctx .alpha) (w [0, 0, 0, 1, 0, 0, 0, 0]) = .ok (.bsAppend, []) ∧
    decode .command (ctx .alpha) (w [0, 0, 0, 1, 0, 0, 0, 1]) = .ok (.bsRdbit, []) ∧
    decode .command (ctx .alpha) (w [0, 0, 0, 1, 0, 0, 1, 0]) = .ok (.bsRd8, []) ∧
    decode .command (ctx .alpha) (w [0, 0, 0, 1, 0, 0, 1, 1]) = .ok (.bsRdint, []) ∧
    decode .command (ctx .alpha) (w [0, 0, 0, 1, 0, 1, 0, 0]) = .ok (.outPutb, []) := by
  decide +kernel

/-- R90. -/
theorem test_decode_code_table_unit :
    decode .command (ctx .alpha) (w [0, 0, 1, 0, 0, 0, 0, 0]) = .ok (.pcClass, []) ∧
    decode .command (ctx .alpha) (w [0, 0, 1, 0, 0, 0, 0, 1]) = .ok (.pcSw, []) ∧
    decode .command (ctx .alpha) (w [0, 0, 1, 0, 0, 0, 1, 0]) = .ok (.pcLit, []) ∧
    decode .command (ctx .alpha) (w [0, 0, 1, 0, 0, 0, 1, 1]) = .ok (.pcCtrl, []) ∧
    decode .command (ctx .alpha) (w [0, 0, 1, 0, 0, 1, 0, 0]) = .ok (.pcUpper, []) ∧
    decode .command (ctx .alpha) (w [0, 0, 1, 0, 0, 1, 0, 1]) = .ok (.pcEnterd, []) ∧
    decode .command (ctx .alpha) (w [0, 0, 1, 0, 0, 1, 1, 0]) = .ok (.pcTerm, []) ∧
    decode .command (ctx .alpha) (w [0, 0, 1, 0, 0, 1, 1, 1]) = .ok (.pcRdh, []) ∧
    decode .command (ctx .alpha) (w [0, 0, 1, 0, 1, 0, 0, 0]) = .ok (.pcRdv, []) := by
  decide +kernel

/-- R90. -/
theorem test_decode_codec_units :
    decode .command (ctx .alpha) (w [0, 0, 1, 1, 0, 0, 0, 0]) = .ok (.stepEnc, []) ∧
    decode .command (ctx .alpha) (w [0, 0, 1, 1, 0, 0, 0, 1]) = .ok (.stepDec, []) ∧
    decode .command (ctx .alpha) (w [0, 0, 1, 1, 0, 0, 1, 0]) = .ok (.cntEnc, []) ∧
    decode .command (ctx .alpha) (w [0, 0, 1, 1, 0, 0, 1, 1]) = .ok (.cntDec, []) ∧
    decode .command (ctx .alpha) (w [0, 1, 0, 0, 0, 0, 0, 0]) = .ok (.udlEnc, []) ∧
    decode .command (ctx .alpha) (w [0, 1, 0, 0, 0, 0, 0, 1]) = .ok (.udlDec, []) ∧
    decode .command (ctx .alpha) (w [0, 1, 0, 0, 0, 0, 1, 0]) = .ok (.udlEsc, []) := by
  decide +kernel

/-- R90. -/
theorem test_decode_token_paths :
    decode .command (ctx .alpha) (w [0, 1, 0, 1, 0, 0, 0, 0]) = .ok (.tkBackref, []) ∧
    decode .command (ctx .alpha) (w [0, 1, 0, 1, 0, 0, 0, 1]) = .ok (.tkRepeat, []) ∧
    decode .command (ctx .alpha) (w [0, 1, 0, 1, 0, 0, 1, 0]) = .ok (.tkHex, []) ∧
    decode .command (ctx .alpha) (w [0, 1, 0, 1, 0, 0, 1, 1]) = .ok (.tkGuid, []) ∧
    decode .command (ctx .alpha) (w [0, 1, 0, 1, 0, 1, 0, 0]) = .ok (.tkTmpl, []) ∧
    decode .command (ctx .alpha) (w [0, 1, 0, 1, 0, 1, 0, 1]) = .ok (.tkFreq, []) ∧
    decode .command (ctx .alpha) (w [0, 1, 0, 1, 0, 1, 1, 0]) = .ok (.tkBin, []) ∧
    decode .command (ctx .alpha) (w [0, 1, 0, 1, 0, 1, 1, 1]) = .ok (.tkUni1, []) := by
  decide +kernel

/-- R90. -/
theorem test_decode_matcher_and_automaton :
    decode .command (ctx .alpha) (w [0, 1, 1, 0, 0, 0, 0, 0]) = .ok (.smFind, []) ∧
    decode .command (ctx .alpha) (w [0, 1, 1, 1, 0, 0, 0, 0]) = .ok (.decStep, []) ∧
    decode .command (ctx .alpha) (w [0, 1, 1, 1, 0, 0, 0, 1]) = .ok (.decRun, []) := by
  decide +kernel

/-- R91. -/
theorem test_decode_unlisted :
    decode .command (ctx .alpha) (w [0, 0, 0, 0, 0, 0, 0, 1]) = .ok (.illegal 0x01, []) ∧
    decode .command (ctx .alpha) (w [1, 1, 1, 1, 1, 1, 1, 1]) = .ok (.illegal 0xFF, []) := by
  decide +kernel

/-- R96. -/
theorem test_decode_horizontal :
    decode .horizontal (ctx .alpha) (w [0, 0]) = .ok (.hAlpha, []) ∧
    decode .horizontal (ctx .alpha) (w [0, 1]) = .ok (.hSym, []) ∧
    decode .horizontal (ctx .alpha) (w [1, 0]) = .ok (.hNum, []) ∧
    decode .horizontal (ctx .alpha) (w [1, 1, 0]) = .ok (.hDict, []) ∧
    decode .horizontal (ctx .alpha) (w [1, 1, 1]) = .ok (.hDelta, []) := by
  decide +kernel

/-- R97. -/
theorem test_decode_vertical_low_1 :
    decode .vertical (ctx .alpha) (w [0, 0]) = .ok (.v0, []) ∧
    decode .vertical (ctx .alpha) (w [0, 1, 0]) = .ok (.v1, []) ∧
    decode .vertical (ctx .alpha) (w [0, 1, 1]) = .ok (.v2, []) ∧
    decode .vertical (ctx .alpha) (w [1, 0, 0, 0]) = .ok (.v3, []) ∧
    decode .vertical (ctx .alpha) (w [1, 0, 0, 1]) = .ok (.v4, []) ∧
    decode .vertical (ctx .alpha) (w [1, 0, 1, 0]) = .ok (.v5, []) ∧
    decode .vertical (ctx .alpha) (w [1, 0, 1, 1]) = .ok (.v6, []) := by
  decide +kernel

/-- R97. -/
theorem test_decode_vertical_low_2 :
    decode .vertical (ctx .alpha) (w [1, 1, 0, 0]) = .ok (.v7, []) ∧
    decode .vertical (ctx .alpha) (w [1, 1, 0, 1, 0]) = .ok (.v8, []) ∧
    decode .vertical (ctx .alpha) (w [1, 1, 0, 1, 1]) = .ok (.v9, []) ∧
    decode .vertical (ctx .alpha) (w [1, 1, 1, 0, 0, 0]) = .ok (.v10, []) ∧
    decode .vertical (ctx .alpha) (w [1, 1, 1, 0, 0, 1]) = .ok (.v11, []) ∧
    decode .vertical (ctx .alpha) (w [1, 1, 1, 0, 1, 0]) = .ok (.v12, []) ∧
    decode .vertical (ctx .alpha) (w [1, 1, 1, 0, 1, 1, 0]) = .ok (.v13, []) := by
  decide +kernel

/-- R97. -/
theorem test_decode_vertical_high_1 :
    decode .vertical (ctx .alpha) (w [1, 1, 1, 0, 1, 1, 1]) = .ok (.v14, []) ∧
    decode .vertical (ctx .alpha) (w [1, 1, 1, 1, 0, 0, 0]) = .ok (.v15, []) ∧
    decode .vertical (ctx .alpha) (w [1, 1, 1, 1, 0, 0, 1]) = .ok (.v16, []) ∧
    decode .vertical (ctx .alpha) (w [1, 1, 1, 1, 0, 1, 0]) = .ok (.v17, []) ∧
    decode .vertical (ctx .alpha) (w [1, 1, 1, 1, 0, 1, 1, 0]) = .ok (.v18, []) ∧
    decode .vertical (ctx .alpha) (w [1, 1, 1, 1, 0, 1, 1, 1]) = .ok (.v19, []) ∧
    decode .vertical (ctx .alpha) (w [1, 1, 1, 1, 1, 0, 0, 0]) = .ok (.v20, []) := by
  decide +kernel

/-- R97. -/
theorem test_decode_vertical_high_2 :
    decode .vertical (ctx .alpha) (w [1, 1, 1, 1, 1, 0, 0, 1]) = .ok (.v21, []) ∧
    decode .vertical (ctx .alpha) (w [1, 1, 1, 1, 1, 0, 1, 0]) = .ok (.v22, []) ∧
    decode .vertical (ctx .alpha) (w [1, 1, 1, 1, 1, 0, 1, 1]) = .ok (.v23, []) ∧
    decode .vertical (ctx .alpha) (w [1, 1, 1, 1, 1, 1, 0, 0]) = .ok (.v24, []) ∧
    decode .vertical (ctx .alpha) (w [1, 1, 1, 1, 1, 1, 0, 1]) = .ok (.v25, []) ∧
    decode .vertical (ctx .alpha) (w [1, 1, 1, 1, 1, 1, 1, 0]) = .ok (.v26, []) ∧
    decode .vertical (ctx .alpha) (w [1, 1, 1, 1, 1, 1, 1, 1]) = .ok (.v27, []) := by
  decide +kernel

/-- R98. -/
theorem test_decode_step_1 :
    decode .step4 (ctx .alpha) (w [0]) = .ok (.step4_0, []) ∧
    decode .step4 (ctx .alpha) (w [1, 0]) = .ok (.step4_1, []) ∧
    decode .step4 (ctx .alpha) (w [1, 1, 0]) = .ok (.step4_2, []) ∧
    decode .step4 (ctx .alpha) (w [1, 1, 1, 0]) = .ok (.step4_3, []) ∧
    decode .step4 (ctx .alpha) (w [1, 1, 1, 1]) = .ok (.step4_4, []) ∧
    decode .step5 (ctx .alpha) (w [0]) = .ok (.step5_0, []) := by
  decide +kernel

/-- R98. -/
theorem test_decode_step_2 :
    decode .step5 (ctx .alpha) (w [1, 0]) = .ok (.step5_1, []) ∧
    decode .step5 (ctx .alpha) (w [1, 1, 0]) = .ok (.step5_2, []) ∧
    decode .step5 (ctx .alpha) (w [1, 1, 1, 0]) = .ok (.step5_3, []) ∧
    decode .step5 (ctx .alpha) (w [1, 1, 1, 1, 0]) = .ok (.step5_4, []) ∧
    decode .step5 (ctx .alpha) (w [1, 1, 1, 1, 1]) = .ok (.step5_5, []) := by
  decide +kernel

/-- R99, and the tier edges of the vectors of section 2.3. -/
theorem test_decode_count :
    decode .count (ctx .alpha) (w [0, 1, 1]) = .ok (.cntTier0 3, []) ∧
    decode .count (ctx .alpha) (w [1, 0, 0, 0, 1, 0]) = .ok (.cntTier1 2, []) ∧
    decode .count (ctx .alpha) (w [1, 1, 0, 0, 0, 0, 1, 0, 1, 1]) = .ok (.cntTier2 11, []) ∧
    decode .count (ctx .alpha) (w [1, 1, 1, 0, 0, 0, 0, 0, 0, 0, 0, 0, 0, 0, 1]) = .ok (.cntTier3 1, []) ∧
    decode .count (ctx .alpha) (w [1, 1, 1, 1, 0, 0, 0, 0, 0, 0, 0, 0, 0, 0, 0, 0, 0, 0, 1, 0]) = .ok (.cntTier4 2, []) := by
  decide +kernel

/-- R100, and vectors of section 2.4. -/
theorem test_decode_delta :
    decode .delta (ctx .delta) (w [0, 1, 0, 0, 0, 0, 0, 1]) = .ok (.dltTier0 true 1, []) ∧
    decode .delta (ctx .delta) (w [1, 0, 0, 0, 0, 1, 1, 0, 1, 1, 1, 0, 0, 1, 0]) = .ok (.dltTier1 false 882, []) ∧
    decode .delta (ctx .delta) (w [1, 1, 0, 0, 0, 0, 0, 1, 1, 1, 0, 0, 0, 1, 1, 0, 1, 0]) = .ok (.dltTier2 false 1818, []) ∧
    decode .delta (ctx .delta) (w [1, 1, 1, 0, 0, 0, 0, 0, 0, 0, 0, 0, 0, 0, 0, 0, 0, 0, 0, 0, 1]) = .ok (.dltTier3 false 1, []) ∧
    decode .delta (ctx .delta) (w [1, 1, 1, 1, 0, 1, 0, 0, 0, 0, 0, 1, 0, 1, 0, 0, 1, 0, 0, 1, 1, 0, 1, 0, 1, 1, 1]) = .ok (.dltTier4 true 42199, []) := by
  decide +kernel

/-- R209, T56. -/
theorem test_decode_escapes :
    decode .delta (ctx .delta) (w [1, 1, 1, 1, 1, 0]) = .ok (.desc0, []) ∧
    decode .delta (ctx .delta) (w [1, 1, 1, 1, 1, 1, 0]) = .ok (.desc1, []) ∧
    decode .delta (ctx .delta) (w [1, 1, 1, 1, 1, 1, 1, 0]) = .ok (.desc2, []) ∧
    decode .delta (ctx .delta) (w [1, 1, 1, 1, 1, 1, 1, 1, 0]) = .ok (.desc3, []) ∧
    decode .delta (ctx .delta) (w [1, 1, 1, 1, 1, 1, 1, 1, 1]) = .ok (.desc4, []) := by
  decide +kernel

/-- R93, R162. -/
theorem test_decode_marker_and_padding :
    decode .marker { ctx .alpha with magicLen := 3 } (w [1, 1, 1]) = .ok (.magic, []) ∧
    decode .padding { ctx .num with padLen := 2 } (w [1, 1]) = .ok (.pad, []) := by
  decide +kernel

/-- R94, R105. -/
theorem test_decode_symbols_and_switches :
    decode .token (ctx .alpha) (w [0, 1, 1]) = .ok (.symbol 2, []) ∧
    decode .token (ctx .num) (w [1, 1, 1, 1, 0, 1, 0]) = .ok (.symbol 17, []) ∧
    decode .switch (ctx .alpha) (w [0, 0, 1, 0]) = .ok (.swResting .num, []) ∧
    decode .switch (ctx .delta) (w [1, 1, 1, 1, 1, 1, 0, 1, 1, 0]) = .ok (.swDelta .dict, []) ∧
    decode .token (ctx .delta) (w [1, 1, 1, 1, 1, 1, 0, 1, 1, 1]) = .ok (.swDelta .delta, []) := by
  decide +kernel

/-- R94, R157 to R160. -/
theorem test_decode_alpha_modes :
    decode .token (ctx .alpha) (w [0, 0, 0, 0, 1, 1, 1, 0, 1, 1, 0]) = .ok (.shift 13, []) ∧
    decode .token (ctx .alpha) (w [0, 0, 0, 0, 0, 0, 0, 0]) = .ok (.upperOn, []) ∧
    decode .token ctxUpper (w [0, 0, 0, 0]) = .ok (.upperOff, []) ∧
    decode .token (ctx .num) (w [0, 0, 0, 0]) = .ok (.toAlpha, []) ∧
    decode .token (ctx .delta) (w [1, 1, 1, 1, 1, 1, 0, 0, 0]) = .ok (.toAlpha, []) ∧
    decode .token (ctx .alpha) (w [0, 0, 0, 0, 0, 1, 0]) = .ok (.enterd, []) := by
  decide +kernel

/-- R94, R145 to R147, T35. -/
theorem test_decode_switched_symbols :
    decode .token (ctx .alpha) (w [0, 0, 0, 1, 1, 0, 1, 1]) = .ok (.symSymbol 6, []) ∧
    decode .token (ctx .delta) (w [1, 1, 1, 1, 1, 1, 0, 1, 0, 0, 1, 0]) = .ok (.numSymbol 1, []) ∧
    decode .token (ctx .num) (w [0, 0, 1, 0, 1, 1, 1, 1, 1, 1, 1, 1]) = .ok (.numSymbol 27, []) ∧
    decode .token (ctx .alpha) (w [0, 0, 0, 1, 1, 1, 0, 0]) = .ok (.ctrlLf, []) ∧
    decode .token (ctx .alpha) (w [0, 0, 0, 1, 1, 1, 0, 1, 0]) = .ok (.ctrlCrlf, []) ∧
    decode .token (ctx .num) (w [0, 0, 0, 1, 1, 1, 1, 0, 1, 1, 1]) = .ok (.ctrlTab, []) ∧
    decode .token (ctx .alpha) (w [0, 0, 0, 1, 1, 1, 1, 1, 1, 0, 1, 0]) = .ok (.ctrlCr, []) := by
  decide +kernel

/-- R147, T75 to T77. -/
theorem test_decode_frequent :
    decode .token (ctx .alpha) (w [0, 0, 0, 1, 1, 1, 1, 1, 1, 1, 0, 1]) = .ok (.freq0, []) ∧
    decode .token (ctx .num) (w [0, 0, 0, 1, 1, 1, 1, 1, 1, 1, 1, 0]) = .ok (.freq1, []) ∧
    decode .token (ctx .delta) (w [1, 1, 1, 1, 1, 1, 0, 0, 1, 1, 1, 1, 1, 1, 1, 1, 1]) = .ok (.freq2, []) ∧
    decode .token (ctx .num) (w [1, 1, 1, 1, 1, 0, 1, 1]) = .ok (.freq3, []) ∧
    decode .token (ctx .alpha) (w [0, 0, 1, 0, 1, 1, 1, 1, 1, 1, 0, 0]) = .ok (.freq4, []) ∧
    decode .token (ctx .alpha) (w [0, 0, 1, 0, 1, 1, 1, 1, 1, 1, 0, 1]) = .ok (.freq5, []) := by
  decide +kernel

/-- R94, T62, T67, T68, T79. -/
theorem test_decode_copies :
    decode .token (ctx .alpha) (w [0, 0, 1, 1, 0, 1, 0, 0, 0, 1, 0, 1, 0, 0, 1, 0, 0]) = .ok (.backref0 11 12, []) ∧
    decode .token { ctx .alpha with lhen := true } (w [0, 0, 1, 1, 0, 0, 0, 0, 0, 0, 1, 0, 1, 0]) = .ok (.backref1 5 1 2, []) ∧
    decode .token (ctx .num) (w [1, 1, 1, 1, 1, 1, 1, 0, 1, 1, 0, 0, 0, 0, 1, 0, 1, 1]) = .ok (.rpt 35, []) ∧
    decode .token (ctx .alpha) (w [0, 0, 1, 0, 1, 1, 1, 1, 1, 1, 1, 0, 0, 0, 0]) = .ok (.rpt 4, []) ∧
    decode .token (ctx .alpha) (w [0, 0, 1, 1, 1, 1, 0, 0, 0, 0, 0, 0, 1, 0, 1, 0, 1, 0, 0, 1]) = .ok (.uni1 (.tier1 false 169), []) ∧
    decode .token (ctx .num) (w [0, 0, 1, 1, 1, 1, 1, 1, 1, 1, 0]) = .ok (.uni1 (.escape 0), []) ∧
    decode .token (ctx .alpha) (w [0, 0, 1, 0, 1, 1, 1, 1, 1, 1, 1, 1]) = .ok (.term, []) ∧
    decode .token (ctx .num) (w [1, 1, 1, 1, 1, 1, 1, 1]) = .ok (.term, []) := by
  decide +kernel

/-- R94, R101, T70 to T78. -/
theorem test_decode_esc :
    decode .token (ctx .alpha) (w [0, 0, 1, 0, 0, 0, 0, 1, 1, 1, 0, 0, 0, 0, 0, 1, 0, 0, 1, 0, 0, 1, 1, 0, 1, 0, 0, 1, 0, 1, 0, 1, 1, 0]) = .ok (.esc0Template 3 0 [1, 2, 3, 4, 5, 6], []) ∧
    decode .token (ctx .alpha) (w [0, 0, 1, 0, 0, 0, 1, 0, 0, 1, 0, 1, 1, 0, 1, 1, 1, 1, 0]) = .ok (.esc1HexLower [13, 14], []) ∧
    decode .token (ctx .num) (w [0, 0, 1, 0, 0, 0, 1, 1, 1, 0, 0, 0, 1, 1, 1, 0, 0]) = .ok (.esc3HexUpper [12], []) ∧
    decode .token (ctx .alpha) (w [0, 0, 1, 0, 0, 0, 1, 1, 1, 1, 1, 0, 1, 0, 0, 0, 0, 0, 0, 0, 0, 0, 1, 1, 1, 1, 1, 1, 1, 1]) = .ok (.esc5Binary [0x00, 0xFF], []) := by
  decide +kernel

/-- R94, R246. -/
theorem test_decode_guid_lower :
    decode .token (ctx .alpha) (w [0, 0, 1, 0, 0, 0, 1, 1, 0] ++ w (List.replicate 127 0) ++ w [1]) =
      .ok (.esc2GuidLower (List.replicate 31 0 ++ [1]), []) := by
  decide +kernel

/-- R94, R246. -/
theorem test_decode_guid_upper :
    decode .token (ctx .alpha) (w [0, 0, 1, 0, 0, 0, 1, 1, 1, 1, 0] ++ w (List.replicate 127 0) ++ w [1]) =
      .ok (.esc4GuidUpper (List.replicate 31 0 ++ [1]), []) := by
  decide +kernel

/-- R345 (M1, M2, M4, M5): bits that are no instruction. -/
theorem test_decode_refuses_by_name :
    decode .token (ctx .alpha) (w [0, 0]) = .error .endOfBits ∧
    decode .token (ctx .alpha) (w [0, 0, 0, 0, 0, 0, 0, 1]) = .error .notAllUpper ∧
    decode .token (ctx .alpha) (w [0, 0, 1, 1, 1, 1, 1, 1, 1, 1, 1, 0]) = .error .switchInTransient ∧
    decode .vertical { ctx .alpha with preset := sparse } (w [0, 0, 1, 0, 0, 0, 0, 0]) = .error .noVerticalCode ∧
    decode .horizontal { ctx .alpha with preset := sparse } (w [0, 0, 1, 0, 0, 0, 0, 0]) = .error .noHorizontalCode := by
  decide +kernel

/-! ## One step: results from the vectors of spec/95_test_vectors.md -/

/-- P1, T60: the magic bit, and OVERFLOW where the capacity is 0. -/
theorem test_init_writes_the_marker :
    outBits (after .init { State.reset with a2 := 100, a3 := 1 }) 0 = (w [1]) ∧
    (after .init { State.reset with a3 := 1 }).status = .overflow ∧
    (after .init { State.reset with a3 := 1 }).need = 1 ∧
    (after .init { State.reset with a0 := 2 }).status = .range := by
  decide +kernel

/-- T1, T3. -/
theorem test_bsAppend :
    outBits (after .bsAppend { encS with a0 := 0xD8, a1 := 5 }) 0 = (w [1, 1, 0, 1, 1]) ∧
    (after .bsAppend { encS with ocap := 2, woff := 8, a0 := 0xB0, a1 := 4 }).out.read 1 = 0xB0 ∧
    (after .bsAppend { encS with ocap := 2, woff := 8, a0 := 0xB0, a1 := 4 }).r0 = 12 := by
  decide +kernel

/-- T4. -/
theorem test_bsAppend_overflow :
    (after .bsAppend { encS with ocap := 2, woff := 12, a0 := 0xF8, a1 := 5 }).status = .overflow ∧
    (after .bsAppend { encS with ocap := 2, woff := 12, a0 := 0xF8, a1 := 5 }).need = 3 ∧
    (after .bsAppend { encS with ocap := 2, woff := 12, a0 := 0xF8, a1 := 5 }).ovf = true ∧
    (after .bsAppend { encS with ocap := 2, woff := 12, a0 := 0xF8, a1 := 5 }).woff = 12 := by
  decide +kernel

/-- T10. -/
theorem test_bsRdbit :
    (after .bsRdbit (decS [0x80])).r0 = 1 ∧
    (after .bsRdbit { decS [0x80] with roff := 8 }).r0 = 1 ∧
    (after .bsRdbit { decS [0x80] with roff := 8 }).reos = true ∧
    (after .bsRdbit { decS [0x80] with roff := 8 }).roff = 9 ∧
    (after .bsRdbit { decS [0x80] with roff := 8 }).status = .ok := by
  decide +kernel

/-- T15, T16. -/
theorem test_bsRd8 :
    (after .bsRd8 { decS [0x87, 0x67] with roff := 1 }).r0 = 0x0E ∧
    (after .bsRd8 { decS [0x87] with roff := 5 }).r0 = 0xFF ∧
    (after .bsRd8 { decS [0x87] with roff := 5 }).roff = 5 := by
  decide +kernel

/-- T11, T12, T14. -/
theorem test_bsRdint :
    (after .bsRdint { decS [0xA5, 0xC3] with roff := 4, a0 := 8 }).r0 = 0x5C ∧
    (after .bsRdint { decS [0xA5] with roff := 4, a0 := 8 }).r0 = 0x5F ∧
    (after .bsRdint { decS [0xA5] with roff := 4, a0 := 8 }).reos = true ∧
    (after .bsRdint { decS [0xA5] with a0 := 33 }).status = .range := by
  decide +kernel

/-- T17. -/
theorem test_outPutb :
    (after .outPutb { decS [] with ocap := 2, opos := 1, a0 := 0x41 }).out.read 1 = 0x41 ∧
    (after .outPutb { decS [] with ocap := 2, opos := 1, a0 := 0x41 }).r0 = 2 ∧
    (after .outPutb { decS [] with ocap := 2, opos := 2, a0 := 0x41 }).need = 3 := by
  decide +kernel

/-- T42: h, H, 7, colon, 0x07. -/
theorem test_pcClass :
    ((after .pcClass { encS with a0 := 0x68 }).r0, (after .pcClass { encS with a0 := 0x68 }).r1, (after .pcClass { encS with a0 := 0x68 }).r2) = (0, 13, 0) ∧
    ((after .pcClass { encS with a0 := 0x48 }).r0, (after .pcClass { encS with a0 := 0x48 }).r1, (after .pcClass { encS with a0 := 0x48 }).r2) = (0, 13, 1) ∧
    ((after .pcClass { encS with a0 := 0x37 }).r0, (after .pcClass { encS with a0 := 0x37 }).r1, (after .pcClass { encS with a0 := 0x37 }).r2) = (2, 13, 0) ∧
    ((after .pcClass { encS with a0 := 0x3A }).r0, (after .pcClass { encS with a0 := 0x3A }).r1, (after .pcClass { encS with a0 := 0x3A }).r2) = (1, 6, 0) ∧
    (after .pcClass { encS with a0 := 0x07 }).r0 = 0xFF := by
  decide +kernel

/-- T37, T38. -/
theorem test_pcSw :
    outBits (after .pcSw { encS with curSet := .num }) 0 = (w [0, 0, 0, 0]) ∧
    (after .pcSw { encS with curSet := .num }).curSet = .alpha ∧
    (after .pcSw { encS with a0 := 2 }).status = .refused := by
  decide +kernel

/-- T21, T22, T25, T32. -/
theorem test_pcLit_alpha :
    outBits (after .pcLit { encS with a0 := 0x48 }) 0 = (w [0, 0, 0, 0, 1, 1, 1, 0, 1, 1, 0]) ∧
    outBits (after .pcLit { encS with a0 := 0x37 }) 0 = (w [0, 0, 1, 0, 1, 1, 1, 0, 1, 1, 0]) ∧
    (after .pcLit { encS with a0 := 0x37 }).curSet = .num ∧
    outBits (after .pcLit { encS with a0 := 0x3A }) 0 = (w [0, 0, 0, 1, 1, 0, 1, 1]) ∧
    outBits (after .pcLit { encS with a0 := 0x63, upper := true }) 0 = (w [0, 0, 0, 0, 1, 1, 1, 0, 0, 1]) := by
  decide +kernel

/-- T23, T24, T27 to T29, T41. -/
theorem test_pcLit_num_delta :
    outBits (after .pcLit { encS with a0 := 0x20, curSet := .num }) 0 = (w [1, 1, 1, 1, 0, 1, 0]) ∧
    outBits (after .pcLit { encS with a0 := 0x62, curSet := .num }) 0 = (w [0, 0, 0, 0, 1, 1, 1, 1, 0, 1, 0]) ∧
    outBits (after .pcLit { encS with a0 := 0x20, curSet := .delta }) 0 = (w [1, 1, 1, 1, 1, 0]) ∧
    outBits (after .pcLit { encS with a0 := 0x2C, curSet := .delta }) 0 = (w [1, 1, 1, 1, 1, 1, 1, 0]) ∧
    outBits (after .pcLit { encS with a0 := 0x61, curSet := .delta }) 0 = (w [1, 1, 1, 1, 1, 1, 0, 0, 0, 1, 0, 0, 1]) ∧
    (after .pcLit { encS with a0 := 0x7F }).status = .range := by
  decide +kernel

/-- T35: LF, CRLF, TAB, CR; LF in DELTA (R156). -/
theorem test_pcCtrl :
    outBits (after .pcCtrl { encS with a0 := 0 }) 0 = (w [0, 0, 0, 1, 1, 1, 0, 0]) ∧
    outBits (after .pcCtrl { encS with a0 := 1 }) 0 = (w [0, 0, 0, 1, 1, 1, 0, 1, 0]) ∧
    outBits (after .pcCtrl { encS with a0 := 2 }) 0 = (w [0, 0, 0, 1, 1, 1, 1, 0, 1, 1, 1]) ∧
    outBits (after .pcCtrl { encS with a0 := 3 }) 0 = (w [0, 0, 0, 1, 1, 1, 1, 1, 1, 0, 1, 0]) ∧
    outBits (after .pcCtrl { encS with curSet := .delta }) 0 = (w [1, 1, 1, 1, 1, 1, 1, 1, 1]) := by
  decide +kernel

/-- T30, T33, T34. -/
theorem test_pcUpper :
    outBits (after .pcUpper { encS with a0 := 1 }) 0 = (w [0, 0, 0, 0, 0, 0, 0, 0]) ∧
    (after .pcUpper { encS with a0 := 1 }).upper = true ∧
    (after .pcUpper { encS with a0 := 1, upper := true }).status = .refused ∧
    outBits (after .pcUpper { encS with upper := true }) 0 = (w [0, 0, 0, 0]) := by
  decide +kernel

/-- T36. -/
theorem test_pcEnterd :
    outBits (after .pcEnterd encS) 0 = (w [0, 0, 0, 0, 0, 1, 0]) ∧
    (after .pcEnterd encS).curSet = .delta := by
  decide +kernel

/-- T39, T40. -/
theorem test_pcTerm :
    outBits (after .pcTerm { encS with woff := 30 }) 30 = (w [0, 0, 1, 0, 1, 1, 1, 1, 1, 1, 1, 1, 1, 1, 1, 1, 1, 1]) ∧
    (after .pcTerm { encS with woff := 30 }).r0 = 6 ∧
    (after .pcTerm { encS with woff := 30 }).curSet = .num ∧
    outBits (after .pcTerm { encS with woff := 28, curSet := .num }) 28 = (w [1, 1, 1, 1, 1, 1, 1, 1, 1, 1, 1, 1]) ∧
    (after .pcTerm { encS with woff := 28, curSet := .num }).r0 = 5 := by
  decide +kernel

/-- T43. -/
theorem test_pcRdh :
    (after .pcRdh (decS [0xC0])).r0 = 3 ∧
    (after .pcRdh (decS [0xC0])).roff = 3 := by
  decide +kernel

/-- T44, T45. -/
theorem test_pcRdv :
    (after .pcRdv (decS [0xEC])).r0 = 13 ∧
    (after .pcRdv (decS [0xEC])).roff = 7 ∧
    (after .pcRdv (decS [])).r0 = 27 ∧
    (after .pcRdv (decS [])).roff = 8 ∧
    (after .pcRdv (decS [])).reos = true := by
  decide +kernel

/-- T50. -/
theorem test_stepEnc :
    outBits (after .stepEnc { encS with a0 := 2, a1 := 4 }) 0 = (w [1, 1, 0]) ∧
    outBits (after .stepEnc { encS with a0 := 4, a1 := 4 }) 0 = (w [1, 1, 1, 1]) ∧
    outBits (after .stepEnc { encS with a0 := 5, a1 := 5 }) 0 = (w [1, 1, 1, 1, 1]) ∧
    (after .stepEnc { encS with a0 := 5, a1 := 4 }).status = .range ∧
    (after .stepEnc { encS with a1 := 9 }).status = .range ∧
    (after .stepEnc encS).status = .range := by
  decide +kernel

/-- T51. -/
theorem test_stepDec :
    (after .stepDec { decS [0xE0] with a0 := 4 }).r0 = 3 ∧
    (after .stepDec { decS [0xE0] with a0 := 4 }).roff = 4 ∧
    (after .stepDec { decS [0xF0] with a0 := 4 }).r0 = 4 ∧
    (after .stepDec { decS [0xF0] with a0 := 4 }).roff = 4 := by
  decide +kernel

/-- The tier edges of section 2.3. -/
theorem test_cntEnc :
    outBits (after .cntEnc { encS with a0 := 3 }) 0 = (w [0, 1, 1]) ∧
    outBits (after .cntEnc { encS with a0 := 4 }) 0 = (w [1, 0, 0, 0, 0, 0]) ∧
    outBits (after .cntEnc { encS with a0 := 147 }) 0 = (w [1, 1, 0, 1, 1, 1, 1, 1, 1, 1]) ∧
    outBits (after .cntEnc { encS with a0 := 148 }) 0 = (w [1, 1, 1, 0, 0, 0, 0, 0, 0, 0, 0, 0, 0, 0, 0]) ∧
    outBits (after .cntEnc { encS with a0 := 2196 }) 0 = (w [1, 1, 1, 1, 0, 0, 0, 0, 0, 0, 0, 0, 0, 0, 0, 0, 0, 0, 0, 0]) ∧
    outBits (after .cntEnc { encS with a0 := 67731 }) 0 = (w [1, 1, 1, 1, 1, 1, 1, 1, 1, 1, 1, 1, 1, 1, 1, 1, 1, 1, 1, 1]) ∧
    (after .cntEnc { encS with a0 := 67732 }).status = .range := by
  decide +kernel

/-- T52, T53. -/
theorem test_cntDec :
    (after .cntDec { decS [0x00] with roff := 6 }).r0 = 1 ∧
    (after .cntDec { decS [0x00] with roff := 6 }).roff = 9 ∧
    (after .cntDec { decS [0x00] with roff := 6 }).reos = true ∧
    (after .cntDec { decS [0x00] with roff := 6 }).status = .ok ∧
    (after .cntDec (decS [])).r0 = 67731 := by
  decide +kernel

/-- Section 2.4. -/
theorem test_udlEnc :
    outBits (after .udlEnc { encS with curSet := .delta, prevCp := 0x3B3, a0 := 0x3B2 }) 0 = (w [0, 1, 0, 0, 0, 0, 0, 1]) ∧
    outBits (after .udlEnc { encS with curSet := .delta, prevCp := 0x100, a0 := 0x113F }) 0 = (w [1, 0, 0, 1, 1, 1, 1, 1, 1, 1, 1, 1, 1, 1, 1]) ∧
    outBits (after .udlEnc { encS with curSet := .delta, prevCp := 0x4E2D, a0 := 0x6587 }) 0 = (w [1, 1, 0, 0, 0, 0, 0, 1, 1, 1, 0, 0, 0, 1, 1, 0, 1, 0]) ∧
    outBits (after .udlEnc { encS with curSet := .delta, prevCp := 0x100, a0 := 0x5140 }) 0 = (w [1, 1, 1, 0, 0, 0, 0, 0, 0, 0, 0, 0, 0, 0, 0, 0, 0, 0, 0, 0, 0]) ∧
    outBits (after .udlEnc { encS with curSet := .delta, prevCp := 0x1F600, a0 := 0xE9 }) 0 = (w [1, 1, 1, 1, 0, 1, 0, 0, 0, 0, 0, 1, 0, 1, 0, 0, 1, 0, 0, 1, 1, 0, 1, 0, 1, 1, 1]) := by
  decide +kernel

/-- T59. -/
theorem test_udlEnc_stops :
    (after .udlEnc { encS with curSet := .delta, prevCp := 0, a0 := 0x7F }).status = .range ∧
    (after .udlEnc { encS with curSet := .delta, prevCp := 0, a0 := 0x110000 }).status = .range ∧
    (after .udlEnc { encS with a0 := 0x80 }).status = .refused := by
  decide +kernel

/-- T55 to T57. -/
theorem test_udlDec :
    ((after .udlDec { decS [0x40] with prevCp := 0x3B2 }).r1, (after .udlDec { decS [0x40] with prevCp := 0x3B2 }).r2, (after .udlDec { decS [0x40] with prevCp := 0x3B2 }).status) = (0, 0x3B2, .ok) ∧
    ((after .udlDec (decS [0xFE])).r0, (after .udlDec (decS [0xFE])).r1, (after .udlDec (decS [0xFE])).r2, (after .udlDec (decS [0xFE])).roff) = (1, 2, 0x2C, 8) ∧
    ((after .udlDec (decS [0x01])).status, (after .udlDec (decS [0x01])).prevCp, (after .udlDec (decS [0x01])).roff) = (.malformed, 0, 8) := by
  decide +kernel

/-- T59, R209, R210. -/
theorem test_udlEsc :
    outBits (after .udlEsc { encS with curSet := .delta, a0 := 3 }) 0 = (w [1, 1, 1, 1, 1, 1, 1, 1, 0]) ∧
    outBits (after .udlEsc { encS with curSet := .delta, a0 := 1 }) 0 = (w [1, 1, 1, 1, 1, 1, 0, 0, 0]) ∧
    (after .udlEsc { encS with curSet := .delta, a0 := 1 }).curSet = .alpha ∧
    (after .udlEsc { encS with curSet := .delta, a0 := 5 }).status = .range ∧
    (after .udlEsc { encS with curSet := .delta, a0 := 1, a1 := 2 }).status = .refused := by
  decide +kernel

/-- T62 to T66. -/
theorem test_tkBackref :
    outBits (after .tkBackref { encS with a0 := 11, a1 := 12 }) 0 = (w [0, 0, 1, 1, 0, 1, 0, 0, 0, 1, 0, 1, 0, 0, 1, 0, 0]) ∧
    outBits (after .tkBackref { encS with curSet := .delta, a0 := 11, a1 := 12 }) 0 = (w [1, 1, 1, 1, 1, 1, 0, 1, 1, 0, 1, 0, 0, 0, 1, 0, 1, 0, 0, 1, 0, 0]) ∧
    (after .tkBackref { encS with a0 := 5, a1 := 3 }).status = .range ∧
    outBits (after .tkBackref { encS with a0 := 5, a2 := 1, lhen := true, lh := [bytes [0x68, 0x65, 0x6C, 0x6C, 0x6F, 0x20, 0x77, 0x6F, 0x72, 0x6C, 0x64]] }) 0 = (w [0, 0, 1, 1, 0, 0, 0, 0, 0, 0, 0, 0, 0, 1]) ∧
    outBits (after .tkBackref { encS with a0 := 5, a1 := 5, lhen := true }) 0 = (w [0, 0, 1, 1, 0, 0, 0, 0, 0, 0, 1, 0, 0, 0]) := by
  decide +kernel

/-- T67 to T69. -/
theorem test_tkRepeat :
    outBits (after .tkRepeat { encS with a0 := 4 }) 0 = (w [0, 0, 1, 0, 1, 1, 1, 1, 1, 1, 1, 0, 0, 0, 0]) ∧
    outBits (after .tkRepeat { encS with curSet := .num, a0 := 35 }) 0 = (w [1, 1, 1, 1, 1, 1, 1, 0, 1, 1, 0, 0, 0, 0, 1, 0, 1, 1]) ∧
    (after .tkRepeat { encS with a0 := 3 }).status = .range := by
  decide +kernel

/-- T70, T71. -/
theorem test_tkHex :
    outBits (after .tkHex { (encIn [0x64, 0x65, 0x61, 0x64, 0x62, 0x65, 0x65, 0x66]) with a1 := 8 }) 0 = (w [0, 0, 1, 0, 0, 0, 1, 0, 1, 0, 0, 1, 0, 0, 1, 1, 0, 1, 1, 1, 1, 0, 1, 0, 1, 0, 1, 1, 0, 1, 1, 0, 1, 1, 1, 1, 1, 0, 1, 1, 1, 0, 1, 1, 1, 1]) ∧
    outBits (after .tkHex { (encIn [0x43, 0x41, 0x46, 0x45, 0x31, 0x32]) with curSet := .num, a1 := 6, a2 := 1 }) 0 = (w [0, 0, 1, 0, 0, 0, 1, 1, 1, 0, 1, 0, 0, 0, 1, 0, 1, 1, 0, 0, 1, 0, 1, 0, 1, 1, 1, 1, 1, 1, 1, 0, 0, 0, 0, 1, 0, 0, 1, 0]) := by
  decide +kernel

/-- T72, P4. -/
theorem test_tkGuid :
    outBits (after .tkGuid (encIn [0x66, 0x61, 0x30, 0x31, 0x62, 0x35, 0x31, 0x65, 0x2d, 0x37, 0x65, 0x63, 0x63, 0x2d, 0x34, 0x65, 0x33, 0x65, 0x2d, 0x62, 0x65, 0x37, 0x62, 0x2d, 0x39, 0x31, 0x38, 0x61, 0x34, 0x63, 0x32, 0x63, 0x38, 0x39, 0x31, 0x63])) 0 = (w [0, 0, 1, 0, 0, 0, 1, 1, 0, 1, 1, 1, 1, 1, 0, 1, 0, 0, 0, 0, 0, 0, 0, 0, 1, 1, 0, 1, 1, 0, 1, 0, 1, 0, 0, 0, 1, 1, 1, 1, 0, 0, 1, 1, 1, 1, 1, 1, 0, 1, 1, 0, 0, 1, 1, 0, 0, 0, 1, 0, 0, 1, 1, 1, 0, 0, 0, 1, 1, 1, 1, 1, 0, 1, 0, 1, 1, 1, 1, 1, 0, 0, 1, 1, 1, 1, 0, 1, 1, 1, 0, 0, 1, 0, 0, 0, 1, 1, 0, 0, 0, 1, 0, 1, 0, 0, 1, 0, 0, 1, 1, 0, 0, 0, 0, 1, 0, 1, 1, 0, 0, 1, 0, 0, 0, 1, 0, 0, 1, 0, 0, 0, 1, 1, 1, 0, 0]) ∧
    (after .tkGuid (encIn [0x66, 0x61, 0x30, 0x31, 0x62, 0x35, 0x31, 0x65, 0x2d, 0x37, 0x65, 0x63, 0x63, 0x2d, 0x34, 0x65, 0x33, 0x65, 0x2d, 0x62, 0x65, 0x37, 0x62, 0x2d, 0x39, 0x31, 0x38, 0x61, 0x34, 0x63, 0x32, 0x63, 0x38, 0x39, 0x31, 0x63])).curSet = .num ∧
    (after .tkGuid { (encIn [0x66, 0x61, 0x30, 0x31, 0x62, 0x35, 0x31, 0x65, 0x2d, 0x37, 0x65, 0x63, 0x63, 0x2d, 0x34, 0x65, 0x33, 0x65, 0x2d, 0x62, 0x65, 0x37, 0x62, 0x2d, 0x39, 0x31, 0x38, 0x61, 0x34, 0x63, 0x32, 0x63, 0x38, 0x39, 0x31, 0x63]) with a1 := 1 }).status = .range := by
  decide +kernel

/-- T73. -/
theorem test_tkTmpl :
    outBits (after .tkTmpl { (encIn [0x31, 0x32, 0x3a, 0x33, 0x34, 0x3a, 0x35, 0x36]) with a0 := 3, a2 := 8 }) 0 = (w [0, 0, 1, 0, 0, 0, 0, 1, 1, 1, 0, 0, 0, 0, 0, 1, 0, 0, 1, 0, 0, 1, 1, 0, 1, 0, 0, 1, 0, 1, 0, 1, 1, 0]) ∧
    (after .tkTmpl { (encIn [0x31, 0x32, 0x3a, 0x33, 0x34, 0x3a, 0x35, 0x36]) with a0 := 3, a2 := 9 }).status = .range ∧
    (after .tkTmpl { (encIn [0x31, 0x32, 0x3a, 0x33, 0x34, 0x3a, 0x35, 0x36]) with a0 := 4, a2 := 8 }).status = .range := by
  decide +kernel

/-- T75 to T77. -/
theorem test_tkFreq :
    outBits (after .tkFreq { encS with a0 := 5 }) 0 = (w [0, 0, 1, 0, 1, 1, 1, 1, 1, 1, 0, 1]) ∧
    (after .tkFreq { encS with a0 := 5 }).curSet = .num ∧
    outBits (after .tkFreq { encS with a0 := 2 }) 0 = (w [0, 0, 0, 1, 1, 1, 1, 1, 1, 1, 1, 1]) ∧
    outBits (after .tkFreq { encS with curSet := .delta }) 0 = (w [1, 1, 1, 1, 1, 1, 0, 0, 1, 1, 1, 1, 1, 1, 1, 0, 1]) := by
  decide +kernel

/-- T78. -/
theorem test_tkBin :
    outBits (after .tkBin { (encIn [0x00, 0xFF, 0x80]) with a1 := 3 }) 0 = (w [0, 0, 1, 0, 0, 0, 1, 1, 1, 1, 1, 0, 1, 1, 0, 0, 0, 0, 0, 0, 0, 0, 1, 1, 1, 1, 1, 1, 1, 1, 1, 0, 0, 0, 0, 0, 0, 0]) := by
  decide +kernel

/-- T79 to T81. -/
theorem test_tkUni1 :
    outBits (after .tkUni1 { encS with a0 := 0xE9 }) 0 = (w [0, 0, 1, 1, 1, 1, 0, 0, 0, 0, 0, 0, 1, 0, 1, 0, 1, 0, 0, 1]) ∧
    (after .tkUni1 { encS with a0 := 0xE9 }).prevCp = 0xE9 ∧
    outBits (after .tkUni1 { encS with curSet := .num, a0 := 0x4E2D }) 0 = (w [0, 0, 1, 1, 1, 1, 1, 0, 0, 1, 1, 1, 1, 0, 1, 1, 1, 1, 0, 1, 1, 0, 1]) ∧
    (after .tkUni1 { encS with curSet := .delta, a0 := 0xE9 }).status = .refused := by
  decide +kernel

/-- T87, T88, T94, T96. -/
theorem test_smFind :
    ((after .smFind { (encIn [0x61, 0x62, 0x63, 0x61, 0x62, 0x63, 0x61, 0x62, 0x63, 0x61, 0x62, 0x63]) with a0 := 6 }).r0, (after .smFind { (encIn [0x61, 0x62, 0x63, 0x61, 0x62, 0x63, 0x61, 0x62, 0x63, 0x61, 0x62, 0x63]) with a0 := 6 }).r1, (after .smFind { (encIn [0x61, 0x62, 0x63, 0x61, 0x62, 0x63, 0x61, 0x62, 0x63, 0x61, 0x62, 0x63]) with a0 := 6 }).r2, (after .smFind { (encIn [0x61, 0x62, 0x63, 0x61, 0x62, 0x63, 0x61, 0x62, 0x63, 0x61, 0x62, 0x63]) with a0 := 6 }).r3) = (1, 6, 6, 0) ∧
    ((after .smFind { (encIn [0x61, 0x61, 0x61, 0x61, 0x61, 0x61, 0x61, 0x61, 0x61, 0x61, 0x61, 0x61]) with a0 := 6 }).r0, (after .smFind { (encIn [0x61, 0x61, 0x61, 0x61, 0x61, 0x61, 0x61, 0x61, 0x61, 0x61, 0x61, 0x61]) with a0 := 6 }).r1, (after .smFind { (encIn [0x61, 0x61, 0x61, 0x61, 0x61, 0x61, 0x61, 0x61, 0x61, 0x61, 0x61, 0x61]) with a0 := 6 }).r2, (after .smFind { (encIn [0x61, 0x61, 0x61, 0x61, 0x61, 0x61, 0x61, 0x61, 0x61, 0x61, 0x61, 0x61]) with a0 := 6 }).r3) = (1, 6, 6, 0) ∧
    ((after .smFind { (encIn [0x48, 0x45, 0x4c, 0x4c, 0x4f, 0x20, 0x57, 0x4f, 0x52, 0x4c, 0x44, 0x20, 0x48, 0x45, 0x4c, 0x4c, 0x4f, 0x20, 0x57, 0x4f, 0x52, 0x4c, 0x44]) with a0 := 12 }).r0, (after .smFind { (encIn [0x48, 0x45, 0x4c, 0x4c, 0x4f, 0x20, 0x57, 0x4f, 0x52, 0x4c, 0x44, 0x20, 0x48, 0x45, 0x4c, 0x4c, 0x4f, 0x20, 0x57, 0x4f, 0x52, 0x4c, 0x44]) with a0 := 12 }).r1, (after .smFind { (encIn [0x48, 0x45, 0x4c, 0x4c, 0x4f, 0x20, 0x57, 0x4f, 0x52, 0x4c, 0x44, 0x20, 0x48, 0x45, 0x4c, 0x4c, 0x4f, 0x20, 0x57, 0x4f, 0x52, 0x4c, 0x44]) with a0 := 12 }).r2, (after .smFind { (encIn [0x48, 0x45, 0x4c, 0x4c, 0x4f, 0x20, 0x57, 0x4f, 0x52, 0x4c, 0x44, 0x20, 0x48, 0x45, 0x4c, 0x4c, 0x4f, 0x20, 0x57, 0x4f, 0x52, 0x4c, 0x44]) with a0 := 12 }).r3) = (1, 11, 12, 0) ∧
    ((after .smFind { (encIn [0x61, 0x62, 0x63, 0x64, 0x65, 0x58, 0x61, 0x62, 0x63, 0x64, 0x65, 0x59, 0x61, 0x62, 0x63, 0x64, 0x65]) with a0 := 12 }).r0, (after .smFind { (encIn [0x61, 0x62, 0x63, 0x64, 0x65, 0x58, 0x61, 0x62, 0x63, 0x64, 0x65, 0x59, 0x61, 0x62, 0x63, 0x64, 0x65]) with a0 := 12 }).r1, (after .smFind { (encIn [0x61, 0x62, 0x63, 0x64, 0x65, 0x58, 0x61, 0x62, 0x63, 0x64, 0x65, 0x59, 0x61, 0x62, 0x63, 0x64, 0x65]) with a0 := 12 }).r2, (after .smFind { (encIn [0x61, 0x62, 0x63, 0x64, 0x65, 0x58, 0x61, 0x62, 0x63, 0x64, 0x65, 0x59, 0x61, 0x62, 0x63, 0x64, 0x65]) with a0 := 12 }).r3) = (1, 5, 6, 0) := by
  decide +kernel

/-- T85, T91, T98, T99. -/
theorem test_smFind_edges :
    ((after .smFind { (encIn [0x61, 0x62, 0x63, 0x61, 0x62, 0x63, 0x61, 0x62, 0x63, 0x61, 0x62, 0x63]) with a0 := 3 }).r0, (after .smFind { (encIn [0x61, 0x62, 0x63, 0x61, 0x62, 0x63, 0x61, 0x62, 0x63, 0x61, 0x62, 0x63]) with a0 := 3 }).r1, (after .smFind { (encIn [0x61, 0x62, 0x63, 0x61, 0x62, 0x63, 0x61, 0x62, 0x63, 0x61, 0x62, 0x63]) with a0 := 3 }).r2, (after .smFind { (encIn [0x61, 0x62, 0x63, 0x61, 0x62, 0x63, 0x61, 0x62, 0x63, 0x61, 0x62, 0x63]) with a0 := 3 }).r3) = (0, 0, 0, 0) ∧
    ((after .smFind { (encIn [0x61, 0x62, 0x63, 0x64, 0x65, 0x61, 0x62, 0x63, 0x64]) with a0 := 5 }).r0, (after .smFind { (encIn [0x61, 0x62, 0x63, 0x64, 0x65, 0x61, 0x62, 0x63, 0x64]) with a0 := 5 }).r1, (after .smFind { (encIn [0x61, 0x62, 0x63, 0x64, 0x65, 0x61, 0x62, 0x63, 0x64]) with a0 := 5 }).r2, (after .smFind { (encIn [0x61, 0x62, 0x63, 0x64, 0x65, 0x61, 0x62, 0x63, 0x64]) with a0 := 5 }).r3) = (0, 0, 0, 0) ∧
    ((after .smFind { (encIn [0x73, 0x61, 0x79, 0x20, 0x68, 0x65, 0x6c, 0x6c, 0x6f]) with a0 := 4, lhen := true, lh := [bytes [0x68, 0x65, 0x6C, 0x6C, 0x6F, 0x20, 0x77, 0x6F, 0x72, 0x6C, 0x64]] }).r0, (after .smFind { (encIn [0x73, 0x61, 0x79, 0x20, 0x68, 0x65, 0x6c, 0x6c, 0x6f]) with a0 := 4, lhen := true, lh := [bytes [0x68, 0x65, 0x6C, 0x6C, 0x6F, 0x20, 0x77, 0x6F, 0x72, 0x6C, 0x64]] }).r1, (after .smFind { (encIn [0x73, 0x61, 0x79, 0x20, 0x68, 0x65, 0x6c, 0x6c, 0x6f]) with a0 := 4, lhen := true, lh := [bytes [0x68, 0x65, 0x6C, 0x6C, 0x6F, 0x20, 0x77, 0x6F, 0x72, 0x6C, 0x64]] }).r2, (after .smFind { (encIn [0x73, 0x61, 0x79, 0x20, 0x68, 0x65, 0x6c, 0x6c, 0x6f]) with a0 := 4, lhen := true, lh := [bytes [0x68, 0x65, 0x6C, 0x6C, 0x6F, 0x20, 0x77, 0x6F, 0x72, 0x6C, 0x64]] }).r3) = (1, 5, 0, 1) ∧
    (after .smFind { (encIn [0x61, 0x62, 0x63]) with a0 := 4 }).status = .range := by
  decide +kernel

/-- T120; the first step of P1. -/
theorem test_decStep :
    ((after .decStep { decS [0x9C, 0x07] with roff := 1 }).status, (after .decStep { decS [0x9C, 0x07] with roff := 1 }).halt, (after .decStep { decS [0x9C, 0x07] with roff := 1 }).roff, (after .decStep { decS [0x9C, 0x07] with roff := 1 }).prevCp) = (.malformed, .malformed, 14, 0) ∧
    ((after .decStep { decS [0x87, 0x67] with roff := 1 }).out.read 0, (after .decStep { decS [0x87, 0x67] with roff := 1 }).r0, (after .decStep { decS [0x87, 0x67] with roff := 1 }).roff) = (0x48, 1, 12) ∧
    (after .decStep (decS [])).status = .endInput := by
  decide +kernel

/-- T100, T113. -/
theorem test_decRun :
    plain (after .decRun { decS [0x87, 0x67, 0xC7, 0x14, 0x5F, 0xFF] with roff := 1 }) = bytes [0x48, 0x65, 0x6c, 0x6c, 0x6f] ∧
    ((after .decRun { decS [0x87, 0x67, 0xC7, 0x14, 0x5F, 0xFF] with roff := 1 }).r0, (after .decRun { decS [0x87, 0x67, 0xC7, 0x14, 0x5F, 0xFF] with roff := 1 }).roff, (after .decRun { decS [0x87, 0x67, 0xC7, 0x14, 0x5F, 0xFF] with roff := 1 }).status, (after .decRun { decS [0x87, 0x67, 0xC7, 0x14, 0x5F, 0xFF] with roff := 1 }).curSet, (after .decRun { decS [0x87, 0x67, 0xC7, 0x14, 0x5F, 0xFF] with roff := 1 }).reos) = (5, 43, .endTerm, .num, false) ∧
    ((after .decRun { decS [0x96, 0xBF, 0xB0, 0xBF, 0xFF] with roff := 1, ocap := 2 }).status, (after .decRun { decS [0x96, 0xBF, 0xB0, 0xBF, 0xFF] with roff := 1, ocap := 2 }).need, (after .decRun { decS [0x96, 0xBF, 0xB0, 0xBF, 0xFF] with roff := 1, ocap := 2 }).roff, (after .decRun { decS [0x96, 0xBF, 0xB0, 0xBF, 0xFF] with roff := 1, ocap := 2 }).curSet, (after .decRun { decS [0x96, 0xBF, 0xB0, 0xBF, 0xFF] with roff := 1, ocap := 2 }).opos) = (.overflow, 3, 28, .num, 2) := by
  decide +kernel

/-- R91. -/
theorem test_illegal :
    (after (.illegal 0x01) encS) = { encS with status := .refused } := by
  decide +kernel

/-! ## One step of a wire form -/

/-- R96 to R99: the value read and the bits consumed. -/
theorem test_code_forms :
    ((after .hDict (decS [])).r0, (after .hDict (decS [])).roff) = (3, 3) ∧
    ((after .v13 (decS [])).r0, (after .v13 (decS [])).roff) = (13, 7) ∧
    ((after .step4_4 (decS [])).r0, (after .step4_4 (decS [])).roff) = (4, 4) ∧
    ((after .step5_4 (decS [])).r0, (after .step5_4 (decS [])).roff) = (4, 5) ∧
    ((after (.cntTier1 2) (decS [])).r0, (after (.cntTier1 2) (decS [])).roff) = (6, 6) := by
  decide +kernel

/-- T59a: the bytes of 0x80, 0x1F600; T56: COMMA. -/
theorem test_delta_forms :
    plain (after (.dltTier1 false 64) { decS [] with curSet := .delta }) = bytes [0xc2, 0x80] ∧
    plain (after (.dltTier4 false 42432) { decS [] with curSet := .delta }) = bytes [0xf0, 0x9f, 0x98, 0x80] ∧
    plain (after .desc2 { decS [] with curSet := .delta }) = bytes [0x2c] ∧
    (after (.dltTier0 false 1) { decS [] with curSet := .delta }).status = .malformed := by
  decide +kernel

/-- The stream CF AE 7A 31 05 FF of section 2.5, T116. -/
theorem test_copy_forms :
    plain (after (.backref0 6 4) { decS [] with opos := 4, out := Memory.fill [] 0 (bytes [0x61, 0x62, 0x63, 0x64]) }) = bytes [0x61, 0x62, 0x63, 0x64, 0x61, 0x62, 0x63, 0x64, 0x61, 0x62] ∧
    plain (after (.rpt 4) { decS [] with opos := 4, out := Memory.fill [] 0 (bytes [0x61, 0x62, 0x63, 0x64]) }) = bytes [0x61, 0x62, 0x63, 0x64, 0x64, 0x64, 0x64, 0x64] ∧
    (after (.rpt 4) (decS [])).status = .malformed ∧
    (after (.backref0 5 5) { decS [] with opos := 4, out := Memory.fill [] 0 (bytes [0x61, 0x62, 0x63, 0x64]) }).status = .malformed ∧
    plain (after (.backref1 5 0 1) { decS [] with lhen := true, lh := [bytes [0x68, 0x65, 0x6C, 0x6C, 0x6F, 0x20, 0x77, 0x6F, 0x72, 0x6C, 0x64]] }) = bytes [0x68, 0x65, 0x6c, 0x6c, 0x6f] := by
  decide +kernel

/-- R144 to R148, R157: letters, symbols, line controls, a frequent substring. -/
theorem test_character_forms :
    plain (after (.symbol 2) (decS [])) = bytes [0x65] ∧
    plain (after (.shift 13) (decS [])) = bytes [0x48] ∧
    plain (after (.symSymbol 6) (decS [])) = bytes [0x3a] ∧
    plain (after (.numSymbol 3) (decS [])) = bytes [0x30] ∧
    plain (after .ctrlCrlf (decS [])) = bytes [0xd, 0xa] ∧
    plain (after .freq5 (decS [])) = bytes [0x3a, 0x2f, 0x2f] := by
  decide +kernel

/-- R94, R158 to R160. -/
theorem test_set_forms :
    (after .upperOn (decS [])).upper = true ∧
    (after .upperOff { decS [] with upper := true }).upper = false ∧
    (after .toAlpha { decS [] with curSet := .num }).curSet = .alpha ∧
    (after .enterd (decS [])).curSet = .delta ∧
    (after (.swDelta .alpha) { decS [] with curSet := .delta }).curSet = .alpha ∧
    ((after .term (decS [])).halt, (after .term (decS [])).curSet, (after .term (decS [])).roff) = (.endTerm, .num, 12) := by
  decide +kernel

/-- T70, T71, T73, T78 read back. -/
theorem test_esc_forms :
    plain (after (.esc1HexLower [13, 14]) (decS [])) = bytes [0x64, 0x65] ∧
    plain (after (.esc3HexUpper [12]) (decS [])) = bytes [0x43] ∧
    plain (after (.esc0Template 3 0 [1, 2, 3, 4, 5, 6]) (decS [])) = bytes [0x31, 0x32, 0x3a, 0x33, 0x34, 0x3a, 0x35, 0x36] ∧
    plain (after (.esc5Binary [0, 0xFF]) (decS [])) = bytes [0x0, 0xff] ∧
    plain (after (.esc2GuidLower (List.replicate 32 10)) (decS [])) = bytes [0x61, 0x61, 0x61, 0x61, 0x61, 0x61, 0x61, 0x61, 0x2d, 0x61, 0x61, 0x61, 0x61, 0x2d, 0x61, 0x61, 0x61, 0x61, 0x2d, 0x61, 0x61, 0x61, 0x61, 0x2d, 0x61, 0x61, 0x61, 0x61, 0x61, 0x61, 0x61, 0x61, 0x61, 0x61, 0x61, 0x61] := by
  decide +kernel

/-- P6: the first codepoint; SET stays. -/
theorem test_transient_delta :
    plain (after (.uni1 (.tier1 false 882)) (decS [])) = bytes [0xce, 0xb2] ∧
    (after (.uni1 (.tier1 false 882)) (decS [])).prevCp = 0x3B2 ∧
    (after (.uni1 (.tier1 false 882)) (decS [])).curSet = .alpha ∧
    (after (.uni1 (.tier1 false 882)) (decS [])).roff = 20 := by
  decide +kernel
/-! ## Witnesses: for each statement with hypotheses, states and operands that meet them -/

/-- Every instruction answers a next state: nothing stops the block (R340, R351). -/
theorem exec_next (i : Instr) (s : State) : exec i s = .next (after i s) := by cases i <;> rfl

/-- A turn of the host. -/
def turn (c : BitVec 8) (a0 a1 a2 a3 : Word) : HostWrite := ⟨c, a0, a1, a2, a3⟩

/-- Power-on with one command waiting. -/
def waiting (c : BitVec 8) : State := { State.reset with host := [turn c 0 0 0 0] }

/-- A decoder that holds `abcde` before its cursor. -/
def copied : State := { decS [] with opos := 5, out := Memory.fill [] 0 (bytes [0x61, 0x62, 0x63, 0x64, 0x65]) }

theorem witness_StepRunsTheHostsNextCommand :
    (waiting 0x71).host = turn 0x71 0 0 0 0 :: [] ∧ State.reset.host = [] := by decide +kernel

/-- A letter, the terminator, a transient delta token, and a whole form that ends exactly at `8*ILEN`. -/
theorem witness_DecStepRunsTheTokenItFetches :
    (decS [0x62]).running ∧ wireForm .token (decS [0x62]) = some (.symbol 2) ∧
    wireForm .token (decS [0x2F, 0xFF]) = some .term ∧
    wireForm .token (decS [0x38, 0x08]) = some (.uni1 (.tier0 false 1)) ∧
    { decS [0xCB] with roff := 4 }.running ∧ wireForm .token { decS [0xCB] with roff := 4 } = some (.symbol 6) := by
  decide +kernel

theorem witness_UnitReadersRunTheCodeTheyRead :
    (decS [0xFF]).canDecode ∧ wireForm .horizontal (decS [0xFF]) = some .hDelta ∧
    wireForm .vertical (decS [0xFF]) = some .v27 ∧ wireForm .count (decS [0x7F]) = some (.cntTier0 3) ∧
    { decS [0xFF] with a0 := 4 }.a0 = 4 ∧ wireForm .step4 { decS [0xFF] with a0 := 4 } = some .step4_4 ∧
    { decS [0xFF] with a0 := 5 }.a0 = 5 ∧ wireForm .step5 { decS [0xFF] with a0 := 5 } = some .step5_5 := by
  decide +kernel

/-- Operands at the end of their ranges; in DELTA a token and a delta token. -/
theorem witness_EncodedFormsDecodeToThemselves :
    (ctx .alpha).preset.wf = true ∧ horizontalShort (ctx .alpha).preset ∧
    wellFormed (ctx .alpha) (.backref0 67736 67735) = true ∧ wellFormed (ctx .num) (.rpt 67735) = true ∧
    wellFormed (ctx .num) (.esc0Template 0 24 []) = true ∧
    wellFormed (ctx .delta) (.dltTier4 true 0x1FFFFF) = true ∧
    ((ctx .delta).set = .delta ∧ readerOf (.dltTier4 true 0x1FFFFF) = .delta ∧
      Instr.dltTier4 true 0x1FFFFF ≠ .desc1) := by
  refine ⟨default_wf, ?_, ?_⟩
  · intro h; cases h <;> decide +kernel
  · decide +kernel

theorem witness_DecodedFormsEncodeToTheBitsRead :
    Reader.token ≠ .marker ∧ Reader.token ≠ .padding ∧
    decode .token (ctx .alpha) (w [0, 0, 1, 1, 0, 0, 0, 0, 0, 0, 1, 1]) = .ok (.backref0 5 5, [true]) := by
  decide +kernel

theorem reset_memories_canonical : State.reset.MemoriesCanonical := by constructor <;> decide +kernel

theorem reset_registers_in_range : State.reset.RegistersInRange := by constructor <;> decide +kernel

theorem reset_flags_consistent : State.reset.FlagsConsistent := by constructor <;> decide +kernel

theorem reset_modes_consistent : State.reset.ModesConsistent := by constructor <;> decide +kernel

/-- A call with something in each memory. -/
def busy : State := { copied with inp := Memory.fill [] 0 (bytes [0x80]), ilen := 1, host := [turn 0x14 0x41 0 0 0] }

theorem witness_StepKeepsMemoriesCanonical :
    busy.MemoriesCanonical ∧ step busy = .next (after .outPutb (busy.latch (turn 0x14 0x41 0 0 0) [])) :=
  ⟨by constructor <;> decide +kernel, rfl⟩

/-- At the ends of the ranges: `OPOS` = `OCAP`, `PREV_CP` = `CP_MAX`, `MAGIC_LEN` = 8. -/
theorem witness_StepKeepsRegistersInRange :
    { busy with ocap := 5, prevCp := 0x10FFFF, magicLen := 8, ilen := 2 ^ 28 }.RegistersInRange ∧
    step { busy with ocap := 5, prevCp := 0x10FFFF, magicLen := 8, ilen := 2 ^ 28 } =
      .next (after .outPutb ({ busy with ocap := 5, prevCp := 0x10FFFF, magicLen := 8, ilen := 2 ^ 28 }.latch
        (turn 0x14 0x41 0 0 0) [])) :=
  ⟨by constructor <;> decide +kernel, rfl⟩

/-- With each flag set: `REOS` just past the end of IN, `OVF` with `NEED` just above the capacity, a halt for overflow. -/
theorem witness_StepKeepsFlagsConsistent :
    { busy with reos := true, roff := 9, ovf := true, need := 65, halt := .overflow }.FlagsConsistent ∧
    step { busy with reos := true, roff := 9, ovf := true, need := 65, halt := .overflow } =
      .next (after .outPutb ({ busy with reos := true, roff := 9, ovf := true, need := 65, halt := .overflow }.latch
        (turn 0x14 0x41 0 0 0) [])) :=
  ⟨by constructor <;> decide +kernel, rfl⟩

theorem witness_StepKeepsModesConsistent :
    { busy with curSet := .delta }.ModesConsistent ∧
    step { busy with curSet := .delta } =
      .next (after .outPutb ({ busy with curSet := .delta }.latch (turn 0x14 0x41 0 0 0) [])) :=
  ⟨by constructor <;> decide +kernel, rfl⟩

theorem witness_MemoryReadsBackWhatWasWritten : Memory.wf [(2, 5), (3, 1)] = true := by decide +kernel

/-- An append of three bits at offset 6 over a byte in use: its first bit, the bits before it, the rest of the byte it
begins, and the bytes on both sides. -/
theorem witness_AppendedBitsStandInOut :
    Memory.wf [(0, 0xB4), (1, 0xFF)] = true ∧ 0 < (w [1, 0, 1]).length ∧ 5 < 6 ∧
    (6 + (w [1, 0, 1]).length ≤ 9 ∧ 9 / 8 < (6 + (w [1, 0, 1]).length + 7) / 8 ∧ (6 + 7) / 8 ≤ 9 / 8) ∧
    ((6 + (w [1, 0, 1]).length + 7) / 8 ≤ 2) ∧ 0 < 8 / 8 := by
  decide +kernel

theorem witness_CommandsOutOfPlaceAreRefused :
    (commandNumber .pcClass ≠ none ∧ Instr.pcClass ≠ .init ∧ State.reset.ready = false) ∧
    (legalMode .bsAppend = some .enc ∧ (decS []).mode ≠ .enc) ∧ (legalMode .decRun = some .dec ∧ encS.mode ≠ .dec) := by
  decide +kernel

theorem witness_UnlistedNumbersAreRefused :
    (0x01 : BitVec 8) ∉ ([0x00, 0x10, 0x11, 0x12, 0x13, 0x14, 0x20, 0x21, 0x22, 0x23, 0x24, 0x25, 0x26, 0x27, 0x28, 0x30,
      0x31, 0x32, 0x33, 0x40, 0x41, 0x42, 0x50, 0x51, 0x52, 0x53, 0x54, 0x55, 0x56, 0x57, 0x60, 0x70, 0x71] :
        List (BitVec 8)) := by
  decide +kernel

theorem witness_RangeAndRefusedChangeOnlyStatus :
    let s : State := { encS with a1 := 9 }
    let u : State := { encS with curSet := .delta }
    exec .bsAppend s = .next (after .bsAppend s) ∧ exec .tkUni1 u = .next (after .tkUni1 u) ∧
      (after .bsAppend s).status = .range ∧ (after .tkUni1 u).status = .refused :=
  ⟨exec_next _ _, exec_next _ _, by decide +kernel⟩

/-- A block whose capacity is used up, before and after the write that does not fit. -/
theorem witness_OverflowIsStickyAndSetsNeed :
    let s : State := { encS with woff := 512, a1 := 1 }
    let u : State := { encS with ovf := true, a1 := 1 }
    let r : State := { encS with woff := 511, a1 := 1 }
    exec .bsAppend s = .next (after .bsAppend s) ∧ exec .bsAppend u = .next (after .bsAppend u) ∧
      exec .bsAppend r = .next (after .bsAppend r) ∧ Instr.bsAppend ≠ .init ∧
      (s.ovf = false ∧ (after .bsAppend s).ovf = true) ∧ u.ovf = true ∧
      (r.ovf = false ∧ (after .bsAppend r).ovf = false) :=
  ⟨exec_next _ _, exec_next _ _, exec_next _ _, by decide +kernel⟩

theorem witness_OutputGrowsWithinItsCapacity :
    let s : State := { encS with woff := 3, a1 := 8 }
    exec .bsAppend s = .next (after .bsAppend s) ∧ exec .outPutb copied = .next (after .outPutb copied) ∧
      s.MemoriesCanonical ∧ copied.MemoriesCanonical ∧ Instr.bsAppend ≠ .init ∧ Instr.outPutb ≠ .init ∧
      (s.mode = .enc ∧ 2 < s.woff ∧ (after .bsAppend s).ocap ≤ 64) ∧
      (copied.mode = .dec ∧ 4 < copied.opos ∧ (after .outPutb copied).opos ≤ 6) :=
  ⟨exec_next _ _, exec_next _ _, by constructor <;> decide +kernel, by constructor <;> decide +kernel, by decide +kernel⟩

theorem witness_HaltAndEndOfInputAreSticky :
    let s : State := { decS [] with halt := .malformed, reos := true }
    exec .bsRdbit s = .next (after .bsRdbit s) ∧ Instr.bsRdbit ≠ .init ∧ s.halt ≠ .run ∧ s.canDecode ∧ s.reos = true :=
  ⟨exec_next _ _, by decide +kernel⟩

theorem witness_HostOwnedStateIsUnchanged :
    exec .init State.reset = .next (after .init State.reset) ∧ exec .pcTerm encS = .next (after .pcTerm encS) ∧
      Instr.pcTerm ≠ .init :=
  ⟨exec_next _ _, exec_next _ _, by decide +kernel⟩

theorem witness_AppendingCommandsFrame :
    let s : State := { encS with woff := 13, a1 := 4 }
    exec .pcCtrl encS = .next (after .pcCtrl encS) ∧ exec .bsAppend s = .next (after .bsAppend s) ∧
      (Instr.pcCtrl ∈ appendingCommands ∧ Instr.pcCtrl ≠ .bsAppend ∧ Instr.pcCtrl ≠ .pcTerm ∧ Instr.pcCtrl ≠ .udlEnc ∧
        Instr.pcCtrl ≠ .tkUni1 ∧ Instr.pcCtrl ∉ [Instr.pcLit, .pcUpper, .pcEnterd] ∧
        Instr.pcCtrl ∈ [Instr.bsAppend, .pcCtrl, .stepEnc, .cntEnc, .udlEnc, .tkBackref, .tkUni1]) ∧
      (Instr.bsAppend ∈ appendingCommands ∧ 0 < s.woff / 8 ∧ ((after .bsAppend s).woff + 7) / 8 ≤ 3) :=
  ⟨exec_next _ _, exec_next _ _, by decide +kernel⟩

theorem witness_ReadingCommandsFrame :
    exec .outPutb copied = .next (after .outPutb copied) ∧ exec .pcRdh (decS []) = .next (after .pcRdh (decS [])) ∧
      exec .decStep (decS [0x62]) = .next (after .decStep (decS [0x62])) ∧
      (4 ≠ copied.opos ∧ 4 < copied.opos ∧ (after .outPutb copied).opos ≤ 6 ∧ Instr.outPutb ∈ [Instr.bsRd8, .outPutb] ∧
        Instr.outPutb ≠ .udlDec ∧ Instr.outPutb ∉ [Instr.decStep, .decRun] ∧
        Instr.outPutb ∉ [Instr.decStep, .decRun, .udlDec]) ∧
      Instr.pcRdh ∉ [Instr.decStep, .decRun, .outPutb] :=
  ⟨exec_next _ _, exec_next _ _, exec_next _ _, by decide +kernel⟩

theorem witness_QueriesWriteOnlyResults :
    exec .pcClass encS = .next (after .pcClass encS) ∧ exec .smFind encS = .next (after .smFind encS) :=
  ⟨exec_next _ _, exec_next _ _⟩

/-- Operands at the ends of the ranges `INIT` admits, and just past them; a Preset it refuses. -/
theorem witness_InitStartsACall :
    (let s : State := { State.reset with a0 := 1, a1 := 2 ^ 28, a2 := 2 ^ 28, a3 := 0x18 }
     (s.a0.toNat ≤ 1 ∧ s.a1.toNat ≤ 2 ^ 28 ∧ s.a2.toNat ≤ 2 ^ 28 ∧ s.a3.toNat % 16 ≤ 8 ∧ s.a3.toNat / 32 = 0) ∧
       s.preset.wf = true ∧ s.a0 = 1) ∧
    (let s : State := { State.reset with a3 := 9 }
     ¬ (s.a0.toNat ≤ 1 ∧ s.a1.toNat ≤ 2 ^ 28 ∧ s.a2.toNat ≤ 2 ^ 28 ∧ s.a3.toNat % 16 ≤ 8 ∧ s.a3.toNat / 32 = 0)) ∧
    (let s : State := { State.reset with a2 := 1, a3 := 8 }
     s.preset.wf = true ∧ s.a0 = 0 ∧ s.a3.toNat % 16 ≤ 8 * s.a2.toNat) ∧
    (let s : State := { State.reset with a3 := 1 }
     s.preset.wf = true ∧ s.a0 = 0 ∧ 8 * s.a2.toNat < s.a3.toNat % 16) ∧
    (let s : State := { State.reset with preset := { Preset.default with hcode := Vector.replicate 5 [] } }
     s.preset.wf = false) := by
  decide +kernel

/-- A horizontal code of nine bits, a character below 0x09 and an empty frequent substring are outside R140's ranges; the
same codes and characters at the ends of the ranges are within them (log entry 6). -/
theorem test_init_presetRanges :
    (let p : Preset := { Preset.default with hcode := Preset.default.hcode.set 0 (List.replicate 9 false) }
     p.wf = false ∧ (after .init { State.reset with preset := p }).status = .refused) ∧
    { Preset.default with hcode := Preset.default.hcode.set 0 (List.replicate 8 false) }.wf = true ∧
    { Preset.default with sym := Preset.default.sym.set 7 (.chr 0x08) }.wf = false ∧
    { Preset.default with sym := Preset.default.sym.set 7 (.chr 0x09) }.wf = true ∧
    { Preset.default with freq := Preset.default.freq.set 0 (some []) }.wf = false := by
  decide +kernel

theorem witness_BsAppendAppendsTheHighBits :
    ¬ (decS []).canEncode ∧ encS.canEncode ∧ (8 < 9 ∧ { encS with a1 := 9 }.a1.toNat = 9) ∧
    ({ encS with a1 := 8 }.a1.toNat ≤ 8 ∧ { encS with woff := 504 }.fits 8) ∧ ¬ { encS with woff := 505 }.fits 8 := by
  decide +kernel

theorem witness_BitReadersReadInStreamOrder :
    (decS []).canDecode ∧ { decS [] with a0 := 32 }.a0.toNat ≤ 32 ∧ 32 < { decS [] with a0 := 33 }.a0.toNat ∧
    ¬ encS.canDecode := by
  decide +kernel

theorem witness_OutPutbWritesOneByte :
    ¬ encS.canDecode ∧ (decS []).canDecode ∧ { decS [] with opos := 63 }.room 1 ∧ ¬ { decS [] with opos := 64 }.room 1 := by
  decide +kernel

/-- `!`, `~`, `A`, `Z`, the space, LF with one place and with none, 0x1F and 0x7F. -/
theorem witness_ClassAnswersThePlaceOfAByte :
    (encS.ready = true ∧ encS.preset.wf = true) ∧
    (encS.preset.symbol .sym 19 = .chr 0x21 ∧ encS.preset.symbol .sym 23 = .chr 0x7E ∧ ¬ uppercaseCode 0x7E) ∧
    (encS.preset.symbol .alpha 4 = .chr (0x41 + 32) ∧ uppercaseCode 0x41 ∧ uppercaseCode 0x5A ∧
      encS.preset.symbol .alpha 27 = .chr (0x5A + 32)) ∧
    encS.preset.placesIn .sym (.chr 0x0A) = [7] ∧
    (sparse.wf = true ∧ sparse.placesIn .sym (.chr 0x0A) = []) ∧
    ((0x1F : Byte).toNat < 0x20 ∧ 0x7F ≤ (0x7F : Byte).toNat) := by
  decide +kernel

theorem witness_CodeReadersReturnTheCodeAtRoff :
    sparse.wf = true ∧ ¬ encS.canDecode ∧ (decS [0xFF]).canDecode ∧
    (decS [0xFF]).nextBits ((decS [0xFF]).preset.v 27).length = (decS [0xFF]).preset.v 27 ∧
    ((Preset.default.h .delta).length ≤ 8 ∧
      (decS []).nextBits (Preset.default.h .delta).length = Preset.default.h .delta) ∧
    (∀ v, { decS [0x20] with preset := sparse }.nextBits (sparse.v v).length ≠ sparse.v v) ∧
    (∀ h, (sparse.h h).length ≤ 8 → { decS [0x20] with preset := sparse }.nextBits (sparse.h h).length ≠ sparse.h h) := by
  refine ⟨sparse_wf, by decide +kernel, by decide +kernel, by decide +kernel, by decide +kernel, by decide +kernel, ?_⟩
  intro h; cases h <;> decide +kernel

/-- Appends that fill the capacity exactly; one bit further on they do not fit. -/
abbrev justFits (s : State) (parts : List BitAppend) : Prop :=
  s.fits (appendBits parts).length ∧ ¬ ({ s with woff := s.woff + 1 } : State).fits (appendBits parts).length

theorem witness_SwitchAndEnterdMoveTheRestingSet :
    (let s : State := { encS with curSet := .delta, woff := 503 }
     s.canEncode ∧ s.a0 = 0 ∧ s.curSet ≠ .alpha ∧ s.fits (switchBits s.preset s.curSet .alpha).length) ∧
    (let s : State := { encS with curSet := .delta, woff := 504 }
     ¬ s.fits (switchBits s.preset s.curSet .alpha).length) ∧
    (encS.curSet = .alpha ∧ { encS with a0 := 2, curSet := .num }.a0 ≠ 0) ∧ { encS with curSet := .delta }.curSet = .delta ∧
    (let s : State := { encS with upper := true, curSet := .num, woff := 497 }
     s.curSet ≠ .delta ∧
       justFits s (switchAppend s .alpha .alpha ++
         (if s.upper then [⟨s.preset.v 0 ++ s.preset.h .alpha, .alpha, false⟩] else []) ++
         [⟨s.preset.v 0 ++ s.preset.h .alpha ++ s.preset.v 1, .delta, false⟩])) := by
  decide +kernel

/-- One state for each clause, in its order; codes that fill the capacity exactly. -/
theorem witness_LiteralAppendsItsCode :
    (encS.canEncode ∧ encS.preset.wf = true) ∧ ((0x1F : Byte).toNat < 0x20 ∧ 0x7E < (0x7F : Byte).toNat) ∧
    (let s : State := { encS with woff := 505 }
     uppercaseCode 0x45 ∧ s.preset.symbol .alpha 2 = .chr (0x45 + 32) ∧
       justFits s (switchAppend s .alpha .alpha ++
         (if s.upper then [] else [appendIn s .alpha (s.preset.v 0 ++ s.preset.h .alpha)]) ++
         [appendIn s .alpha (s.preset.v 2)])) ∧
    (let s : State := { encS with curSet := .num, upper := true, woff := 496 }
     0x61 ≤ (0x7A : Byte).toNat ∧ (0x7A : Byte).toNat ≤ 0x7A ∧ s.preset.symbol .alpha 27 = .chr 0x7A ∧
       justFits s (switchAppend s .alpha .alpha ++
         (if s.upper then [⟨s.preset.v 0 ++ s.preset.h .alpha, .alpha, false⟩] else []) ++
         [⟨s.preset.v 27, .alpha, false⟩])) ∧
    (let s : State := { encS with curSet := .num, woff := 505 }
     s.curSet = .num ∧ s.preset.symbol .num 17 = .chr 0x20 ∧ justFits s [plainAppend s (s.preset.v 17)]) ∧
    (let s : State := { encS with curSet := .num, preset := sparse, woff := 503 }
     s.preset.wf = true ∧ s.curSet = .num ∧ s.preset.placesIn .num (.chr 0x20) = [] ∧
       s.fits (appendBits (switchAppend s .alpha .alpha ++ [appendIn s .alpha (s.preset.v 1)])).length) := by
  decide +kernel

/-- The clauses that follow, in their order. -/
theorem witness_LiteralAppendsItsCode_rest :
    (let s : State := { encS with woff := 509 }
     s.curSet = .alpha ∧ justFits s (switchAppend s .alpha .alpha ++ [appendIn s .alpha (s.preset.v 1)])) ∧
    (let s : State := { encS with curSet := .delta, woff := 503 }
     s.curSet = .delta ∧ justFits s [plainAppend s (stepBits 5 5 ++ stepBits 3 4)] ∧
       s.fits (stepBits 5 5 ++ stepBits 0 4).length ∧ s.fits (stepBits 5 5 ++ stepBits 2 4).length) ∧
    (let s : State := { encS with curSet := .delta, woff := 495 }
     ¬ (s.curSet = .delta ∧ ((0x7E : Byte) = 0x2C ∨ (0x7E : Byte) = 0x2E)) ∧ 0x21 ≤ (0x7E : Byte).toNat ∧
      (0x7E : Byte).toNat ≤ 0x7E ∧ ¬ uppercaseCode 0x7E ∧ s.preset.symbol .sym 23 = .chr 0x7E ∧
      justFits s [plainAppend s (switchBits s.preset s.curSet .sym), plainAppend s (s.preset.v 23)]) ∧
    (let s : State := { encS with woff := 505 }
     ¬ (s.curSet = .delta ∧ ((0x2C : Byte) = 0x2C ∨ (0x2C : Byte) = 0x2E)) ∧ 0x21 ≤ (0x2C : Byte).toNat ∧
      (0x2C : Byte).toNat ≤ 0x7E ∧ ¬ uppercaseCode 0x2C ∧ s.preset.symbol .num 1 = .chr 0x2C ∧
      justFits s (switchAppend s .num .num ++ [appendIn s .num (s.preset.v 1)])) := by
  decide +kernel

/-- Under `sparse` LF has no place: room for the longest code is room for any. -/
theorem witness_LineControlAppendsItsCode :
    (encS.canEncode ∧ 3 < { encS with a0 := 4 }.a0.toNat) ∧
    (let s : State := { encS with curSet := .delta, woff := 503 }
     s.a0 = 0 ∧ s.curSet = .delta ∧ s.fits 9 ∧ ¬ { s with woff := 504 }.fits 9) ∧
    (let s : State := { encS with woff := 504 }
     ¬ (s.a0 = 0 ∧ s.curSet = .delta) ∧ s.preset.placesIn .sym (.chr 0x0A) = [7] ∧
      justFits s [plainAppend s (switchBits s.preset s.curSet .sym), plainAppend s (s.preset.v 7)]) ∧
    (let s : State := { encS with a0 := 3, curSet := .delta, woff := 495 }
     ¬ (s.a0 = 0 ∧ s.curSet = .delta) ∧ s.a0 = 3 ∧ s.a0.toNat ≤ 3 ∧ s.preset.placesIn .sym (.chr 0x0D) = [22] ∧
      justFits s [plainAppend s (switchBits s.preset s.curSet .sym), plainAppend s (s.preset.v 22)]) ∧
    (encS.preset.placesIn .sym .crlf = [8] ∧ encS.preset.placesIn .sym (.chr 0x09) = [14]) ∧
    (let s : State := { encS with preset := sparse, woff := 499 }
     s.preset.wf = true ∧ ¬ (s.a0 = 0 ∧ s.curSet = .delta) ∧ s.preset.placesIn .sym (.chr 0x0A) = [] ∧
       s.fits ((switchBits s.preset s.curSet .sym).length + 8) ∧
       ¬ { s with woff := 500 }.fits ((switchBits s.preset s.curSet .sym).length + 8)) := by
  decide +kernel

theorem witness_UpperCommandTogglesTheMode :
    (encS.canEncode ∧ 1 < { encS with a0 := 2 }.a0.toNat) ∧
    (let s : State := { encS with a0 := 1, upper := true }
     s.a0 = 1 ∧ s.upper = true) ∧ (encS.a0 = 0 ∧ encS.upper = false) ∧
    (let s : State := { encS with a0 := 1, curSet := .delta, woff := 495 }
     s.a0 = 1 ∧ s.upper = false ∧
       justFits s (switchAppend s .alpha .alpha ++
         [⟨s.preset.v 0 ++ s.preset.h .alpha ++ s.preset.v 0 ++ s.preset.h .alpha, .alpha, true⟩])) ∧
    (let s : State := { encS with upper := true, woff := 508 }
     s.a0 = 0 ∧ s.upper = true ∧
       justFits s (switchAppend s .alpha .alpha ++ [⟨s.preset.v 0 ++ s.preset.h .alpha, .alpha, false⟩])) := by
  decide +kernel

/-- From `WOFF` = 493 the terminator and seven bits of padding fill the capacity; from 500 there is no padding; from 503 the
switch fits and the terminator does not. -/
theorem witness_TerminatorPadsToTheByte :
    (encS.canEncode ∧ encS.preset.wf = true ∧ encS.out.wf = true ∧ encS.preset.symbol .num 27 = .term) ∧
    (let s : State := { encS with woff := 493 }
     let body := switchAppend s .num .num ++ [appendIn s .num (s.preset.v 27)]
     (8 - (s.woff + (appendBits body).length) % 8) % 8 = 7 ∧ s.fits ((appendBits body).length + 7)) ∧
    (let s : State := { encS with woff := 500 }
     let body := switchAppend s .num .num ++ [appendIn s .num (s.preset.v 27)]
     (8 - (s.woff + (appendBits body).length) % 8) % 8 = 0 ∧ s.fits ((appendBits body).length + 0)) ∧
    (let s : State := { encS with woff := 503 }
     s.fits (switchBits s.preset s.curSet .num).length ∧ (after .pcTerm s).curSet = .num ∧
       (after .pcTerm s).woff = 507 ∧ (after .pcTerm s).status = .overflow) := by
  decide +kernel

theorem witness_StepAndCountCodesAppended :
    ¬ (decS []).canEncode ∧ encS.canEncode ∧
    (let s : State := { encS with a1 := 9 }
     ¬ (1 ≤ s.a1.toNat ∧ s.a1.toNat ≤ 8 ∧ s.a0.toNat ≤ s.a1.toNat)) ∧
    (let s : State := { encS with a0 := 8, a1 := 8, woff := 504 }
     1 ≤ s.a1.toNat ∧ s.a1.toNat ≤ 8 ∧ s.a0.toNat ≤ s.a1.toNat ∧
       s.fits (List.replicate s.a0.toNat true ++ (if s.a0 = s.a1 then [] else [false])).length) ∧
    (let s : State := { encS with a0 := 0, a1 := 1, woff := 512 }
     1 ≤ s.a1.toNat ∧ ¬ s.fits (List.replicate s.a0.toNat true ++ (if s.a0 = s.a1 then [] else [false])).length) ∧
    67732 ≤ { encS with a0 := 67732 }.a0.toNat ∧
    (let s : State := { encS with a0 := 67731, woff := 492 }
     countBase 4 ≤ s.a0.toNat ∧ s.a0.toNat < countBase 4 + 2 ^ countWidth 4 ∧
       s.fits (stepBits 4 4 ++ field (countWidth 4) (s.a0.toNat - countBase 4)).length) ∧
    (let s : State := { encS with a0 := 0, woff := 510 }
     countBase 0 ≤ s.a0.toNat ∧ s.a0.toNat < countBase 0 + 2 ^ countWidth 0 ∧
       ¬ s.fits (stepBits 0 4 ++ field (countWidth 0) (s.a0.toNat - countBase 0)).length) := by
  decide +kernel

theorem witness_StepAndCountCodesRead :
    ¬ encS.canDecode ∧ (decS []).canDecode ∧
    (let s : State := { decS [] with a0 := 9 }
     ¬ (1 ≤ s.a0.toNat ∧ s.a0.toNat ≤ 8)) ∧
    (let s : State := { decS [] with a0 := 8 }
     s.a0.toNat ≤ 8 ∧ 1 ≤ s.a0.toNat ∧ 8 ≤ s.a0.toNat ∧
       s.nextBits (stepBits 8 s.a0.toNat).length = stepBits 8 s.a0.toNat) ∧
    (67731 < 67732 ∧ (decS []).nextBits (cntBits 67731).length = cntBits 67731) := by
  decide +kernel

/-- The first codepoint and the last, exactly fitting and one bit short. -/
theorem witness_UdlEncAppendsTheDelta :
    ¬ (decS []).canEncode ∧ encS.canEncode ∧ encS.curSet ≠ .delta ∧
    (let s : State := { encS with curSet := .delta, a0 := 0x7F }
     s.curSet = .delta ∧ s.a0.toNat < 0x80) ∧ 0x10FFFF < { encS with a0 := 0x110000 }.a0.toNat ∧
    (let s : State := { encS with curSet := .delta, a0 := 0x80, woff := 497 }
     0x80 ≤ s.a0.toNat ∧ s.a0.toNat ≤ 0x10FFFF ∧ deltaBase 1 ≤ 128 ∧ 128 < deltaBase 1 + 2 ^ deltaWidth 1 ∧
       ((s.a0.toNat : Int) - s.prevCp).natAbs = 128 ∧
       s.fits (stepBits 1 5 ++ [false] ++ field (deltaWidth 1) (128 - deltaBase 1)).length) ∧
    (let s : State := { encS with curSet := .delta, a0 := 0x10FFFF, woff := 486 }
     0x80 ≤ s.a0.toNat ∧ s.a0.toNat ≤ 0x10FFFF ∧ ((s.a0.toNat : Int) - s.prevCp).natAbs = 0x10FFFF ∧
       deltaBase 4 ≤ 0x10FFFF ∧ 0x10FFFF < deltaBase 4 + 2 ^ deltaWidth 4 ∧
       ¬ s.fits (stepBits 4 5 ++ [false] ++ field (deltaWidth 4) (0x10FFFF - deltaBase 4)).length) := by
  decide +kernel

/-- The last escape, the codepoint 0x80, the codepoint 0x7F, and the one past `CP_MAX`. -/
theorem witness_UdlDecReadsOneHead :
    ¬ encS.canDecode ∧ (decS []).canDecode ∧
    (4 ≤ 4 ∧ (decS []).nextBits (stepBits 5 5 ++ stepBits 4 4).length = stepBits 5 5 ++ stepBits 4 4) ∧
    (let s : State := { decS [0x01] with prevCp := 0x7F }
     let code := stepBits 0 5 ++ [false] ++ field (deltaWidth 0) 1
     1 < 2 ^ deltaWidth 0 ∧ s.nextBits code.length = code ∧ 0x80 ≤ (s.prevCp : Int) + 1 ∧
       (s.prevCp : Int) + 1 ≤ 0x10FFFF) ∧
    (let s : State := { decS [0x41] with prevCp := 0x80 }
     let code := stepBits 0 5 ++ [true] ++ field (deltaWidth 0) 1
     s.nextBits code.length = code ∧ (s.prevCp : Int) + (-1) < 0x80) ∧
    0x10FFFF < ({ decS [0x01] with prevCp := 0x10FFFF }.prevCp : Int) + 1 := by
  decide +kernel

theorem witness_UdlEscAppendsTheEscape :
    ¬ (decS []).canEncode ∧ encS.canEncode ∧ encS.curSet ≠ .delta ∧ { encS with curSet := .delta }.curSet = .delta ∧
    4 < { encS with a0 := 5 }.a0.toNat ∧
    (let s : State := { encS with a0 := 1, a1 := 2 }
     s.a0 = 1 ∧ s.a1 ≠ 0) ∧
    (let s : State := { encS with a0 := 1, woff := 503 }
     s.a0 = 1 ∧ s.a1 = 0 ∧ s.fits (stepBits 5 5 ++ stepBits s.a0.toNat 4 ++ s.preset.h .alpha).length) ∧
    (let s : State := { encS with a0 := 1, woff := 504 }
     ¬ s.fits (stepBits 5 5 ++ stepBits s.a0.toNat 4 ++ s.preset.h .alpha).length) ∧
    (let s : State := { encS with a0 := 4, woff := 503 }
     s.a0 ≠ 1 ∧ s.a0.toNat ≤ 4 ∧ s.fits (stepBits 5 5 ++ stepBits s.a0.toNat 4).length) ∧
    (let s : State := { encS with a0 := 0, woff := 507 }
     s.a0 ≠ 1 ∧ s.a0.toNat ≤ 4 ∧ ¬ s.fits (stepBits 5 5 ++ stepBits s.a0.toNat 4).length) := by
  decide +kernel

/-- A line history of one line of 11 bytes. -/
def history : List ByteStr := [bytes [0x68, 0x65, 0x6C, 0x6C, 0x6F, 0x20, 0x77, 0x6F, 0x72, 0x6C, 0x64]]

/-- The least and the greatest length and distance, and the end of a line; then each just past its range. -/
theorem witness_BackrefCommandAppendsItsCounts :
    (encS.canEncode ∧ 4 < 5 ∧ 67732 ≤ 67737 - 5) ∧ (encS.lhen = false ∧ 3 < 4 ∧ 67732 ≤ 67736 - 4) ∧
    (let s : State := { encS with lhen := true, lh := history }
     s.lhen = true ∧ s.lh.length < 2 ∧ (s.lh.getD (1 - 1) []).length < 7 + 5) ∧
    (let s : State := { encS with woff := 501 }
     5 - 5 < 67732 ∧ (s.lhen = false ∧ 4 ≤ 4 ∧ 4 - 4 < 67732) ∧
       s.fits (appendBits ([plainAppend s (switchBits s.preset s.curSet .dict), plainAppend s (cntBits (5 - 5)),
         plainAppend s (cntBits (4 - 4))] ++ (if s.lhen then [plainAppend s (cntBits 0)] else []))).length) ∧
    (let s : State := { encS with lhen := true, lh := history, curSet := .delta, woff := 490 }
     s.lhen = true ∧ 1 ≤ 1 ∧ 1 ≤ s.lh.length ∧ 6 + 5 ≤ (s.lh.getD (1 - 1) []).length ∧
       s.fits (appendBits ([plainAppend s (switchBits s.preset s.curSet .dict), plainAppend s (cntBits (5 - 5)),
         plainAppend s (cntBits 6)] ++ (if s.lhen then [plainAppend s (cntBits 1)] else []))).length) := by
  decide +kernel

/-- Under `sparse` RPT has no place: room for the longest code is room for any. -/
theorem witness_RepeatAndFrequentCommandsAppendTheirSymbol :
    encS.canEncode ∧ (3 < 4 ∧ 67732 ≤ { encS with a0 := 67736 }.a0.toNat - 4) ∧
    (let s : State := { encS with a0 := 67735, curSet := .num, woff := 484 }
     s.preset.placesIn .num .rpt = [26] ∧ 4 ≤ s.a0.toNat ∧ s.a0.toNat - 4 < 67732 ∧
       justFits s (switchAppend s .num .num ++
         [appendIn s .num (s.preset.v 26), appendIn s .num (cntBits (s.a0.toNat - 4))])) ∧
    (let s : State := { encS with a0 := 4, preset := sparse, woff := 496 }
     s.preset.wf = true ∧ 4 ≤ s.a0.toNat ∧ s.a0.toNat - 4 < 67732 ∧ s.preset.placesIn .num .rpt = [] ∧
       s.fits ((switchUnless s .num .num).length + 8 + (cntBits (s.a0.toNat - 4)).length)) ∧
    5 < { encS with a0 := 6 }.a0.toNat ∧
    (let s : State := { encS with preset := { Preset.default with freq := Preset.default.freq.set 5 none } }
     s.preset.freq[(5 : Fin 6)] = none) ∧
    (let s : State := { encS with woff := 500 }
     s.a0.toNat = (0 : Fin 6).val ∧ s.preset.freq[(0 : Fin 6)] ≠ none ∧ s.preset.places (.freq 0) = [(.sym, 25)] ∧
      justFits s [plainAppend s (switchBits s.preset s.curSet .sym), plainAppend s (s.preset.v 25)]) ∧
    (let s : State := { encS with a0 := 5, curSet := .delta, woff := 495 }
     s.a0.toNat = (5 : Fin 6).val ∧ s.preset.freq[(5 : Fin 6)] ≠ none ∧ s.preset.places (.freq 5) = [(.num, 25)] ∧
       justFits s (switchAppend s .num .num ++ [appendIn s .num (s.preset.v 25)])) := by
  decide +kernel

/-- IN holds one GUID of the digit `a`. -/
def guidIn : State := encIn (((guidText .lower (List.replicate 32 10))).map (·.toNat))

theorem witness_HexAndGuidCommandsPackTheirDigits :
    guidIn.canEncode ∧ guidIn.ilen = 36 ∧ (guidIn.a2.toNat = 0 ∧ guidIn.a1.toNat = 0) ∧
    (guidIn.ilen < 0 + 37 ∧ hexVal (guidIn.inp.read (0 + 8)) .lower = none) ∧
    (guidIn.inp.slice 0 1 = ([10] : List (BitVec 4)).map (fun x => hexChar x.toNat .lower) ∧
      justFits { guidIn with woff := 497 } (escAppends guidIn 1 ++
        [appendIn guidIn .num (cntBits 1), appendIn guidIn .num (nibbleBits [10])])) ∧
    1 < { guidIn with a2 := 2 }.a2.toNat ∧ { guidIn with a2 := 1 }.a2.toNat = 1 ∧ { guidIn with a1 := 1 }.a1.toNat = 1 ∧
    ((List.replicate 32 (10 : BitVec 4)).length = 32 ∧ 0 + 36 ≤ guidIn.ilen ∧
      guidIn.inp.slice 0 36 = guidText .lower (List.replicate 32 10) ∧
      justFits { guidIn with woff := 375 } (escAppends guidIn 2 ++
        [appendIn guidIn .num (nibbleBits (List.replicate 32 10))])) ∧
    (guidIn.ilen < 1 + 36 ∧ (encIn [0x61]).inp.read (0 + 8) ≠ 0x2D ∧ hexVal (guidIn.inp.read (0 + 8)) .upper = none) := by
  decide +kernel

/-- A template one character longer than R248 allows; a Preset that holds it is none. -/
def longTemplate : ByteStr := List.replicate 67732 0x2D

/-- A Preset with that template. -/
def overlong : Preset := { Preset.default with tmpl := Preset.default.tmpl.set 4 (some longTemplate) }

/-- The whole of template 3 and its first position; a run one byte short of it and one that does not match. -/
theorem witness_TemplateCommandPacksItsPlaceholders :
    let s : State := encIn [0x31, 0x32, 0x3A, 0x33, 0x34, 0x3A, 0x35, 0x36]
    let t : ByteStr := bytes [0x74, 0x66, 0x3A, 0x72, 0x66, 0x3A, 0x72, 0x66]
    (s.canEncode ∧ 4 < { s with a0 := 5 }.a0.toNat ∧ s.preset.tmpl[(4 : Fin 5)] = none ∧
      s.preset.tmpl[(3 : Fin 5)] = some t ∧ s.preset.wf = true) ∧
    (t.length < 9 ∧ s.ilen < 1 + 8 ∧ letterMatches (t.getD 0 0) ((encIn [0x34]).inp.read (0 + 0)) = false) ∧
    (8 ≤ t.length ∧ 0 + 8 ≤ s.ilen ∧ t.length - 8 < 67732 ∧
      digitsFit (placeholderWidths (t.take 8)) [1, 2, 3, 4, 5, 6] = true ∧
      (∀ j, j < 8 → letterMatches (t.getD j 0) (s.inp.read (0 + j)) = true) ∧
      s.inp.slice 0 8 = templateText (t.take 8) [1, 2, 3, 4, 5, 6] ∧
      justFits { s with woff := 478 } (escAppends s 0 ++ [appendIn s .num (stepBits 3 4),
        appendIn s .num (cntBits (t.length - 8)),
        appendIn s .num (fieldsOf (placeholderWidths (t.take 8)) [1, 2, 3, 4, 5, 6])])) ∧
    (digitsFit (placeholderWidths (t.take 1)) [3] = true ∧ (encIn [0x33]).inp.slice 0 1 = templateText (t.take 1) [3]) := by
  decide +kernel

/-- The templates just beyond R248's bound, whose unmatched length no count holds (R187), and just within it. -/
theorem witness_TemplateCommandPacksItsPlaceholders_bound :
    overlong.tmpl[(4 : Fin 5)] = some longTemplate ∧ 67732 ≤ longTemplate.length - 0 ∧ longTemplate.length - 1 < 67732 := by
  have h : longTemplate.length = 67732 := List.length_replicate
  refine ⟨?_, by omega, by omega⟩
  simp [overlong]

theorem witness_BinaryAndSingleCodepointCommands :
    let s : State := encIn [0x00, 0xFF]
    (s.canEncode ∧ 67732 ≤ 67732 ∧ s.ilen < 1 + 2) ∧
    (0 + 2 ≤ s.ilen ∧ justFits { s with woff := 482 } (escAppends s 5 ++
      [appendIn s .num (cntBits 2), appendIn s .num (byteBits (s.inp.slice 0 2))])) ∧
    { s with curSet := .delta }.curSet = .delta ∧
    (s.curSet ≠ .delta ∧ { s with a0 := 0x7F }.a0.toNat < 0x80 ∧ 0x10FFFF < { s with a0 := 0x110000 }.a0.toNat) ∧
    (let u : State := { s with a0 := 0x10FFFF, woff := 480 }
     0x80 ≤ u.a0.toNat ∧ u.a0.toNat ≤ 0x10FFFF ∧
       justFits u [plainAppend u (u.preset.v 0 ++ u.preset.h .delta),
         plainAppend u (deltaBits ((u.a0.toNat : Int) - u.prevCp))]) ∧
    0x80 ≤ { s with a0 := 0x80 }.a0.toNat := by
  decide +kernel

/-- `aaaaaaaaaa` at the cursor 5 has a match, the five bytes before the cursor, and `SM.FIND` reports it; IN with nothing
after the cursor has none. -/
theorem witness_FindReportsThePreferredMatch :
    (encS.canEncode ∧ encS.ilen < { encS with a0 := 1 }.a0.toNat ∧ encS.a0.toNat ≤ encS.ilen) ∧
    (let s : State := { encIn (List.replicate 10 0x61) with a0 := 5 }
     (s.canEncode ∧ s.a0.toNat ≤ s.ilen) ∧ isCandidate s 5 ⟨5, 5, 0⟩ ∧
       (after .smFind s).r0 = 1 ∧ (after .smFind s).r1 = 5 ∧ (after .smFind s).r2 = 5 ∧ (after .smFind s).r3 = 0) ∧
    (∀ b, ¬ isCandidate encS 0 b) ∧ (after .smFind encS).r0 = 0 := by
  refine ⟨by decide +kernel, ⟨by decide +kernel, ⟨by decide, by decide, by decide, by decide, .inl (by decide +kernel)⟩,
    by decide +kernel⟩, ?_, by decide +kernel⟩
  intro b h
  have h1 : 5 ≤ b.len := h.1
  have h2 : 0 + b.len ≤ 0 := h.2.2.1
  omega

theorem witness_DecStepEndsOrOutputsACharacter :
    ((decS [0x62]).canDecode ∧ (decS [0x62]).halt = .run) ∧
    8 * { decS [0x62] with roff := 8 }.ilen ≤ { decS [0x62] with roff := 8 }.roff ∧
    (let s : State := { decS [0xFF] with opos := 63, upper := true }
     s.preset.wf = true ∧ s.reos = false ∧ (27 : Fin 28) ≠ 0 ∧ s.preset.v 27 <+: remainingBits s ∧ s.room 1 ∧
       s.curSet = .alpha ∧ s.preset.symbol .alpha 27 = .chr 0x7A) ∧
    (let s : State := { decS [0x40] with curSet := .num }
     s.preset.v 1 <+: remainingBits s ∧ s.curSet = .num ∧ s.preset.symbol .num 1 = .chr 0x2C) := by
  decide +kernel

theorem witness_DecRunStepsToAHalt :
    let s : State := decS [0x62]
    exec .decStep s = .next (after .decStep s) ∧ s.canDecode ∧ s.halt = .run :=
  ⟨exec_next _ _, by decide +kernel⟩

/-- The last bits of IN begin a code that ends in padding; under `sparse`, bits that padding makes no code. -/
theorem witness_StepsThatOverReadEndTheInput :
    let s : State := { decS [0x01] with roff := 7 }
    let u : State := { decS [0x01] with roff := 5, preset := sparse }
    exec .decStep s = .next (after .decStep s) ∧ exec .decStep u = .next (after .decStep u) ∧
      (s.running ∧ (after .decStep s).reos = true) ∧
      (u.running ∧ u.preset.wf = true ∧ (∀ v, u.nextBits (u.preset.v v).length ≠ u.preset.v v) ∧
        (after .decStep u).reos = true) :=
  ⟨exec_next _ _, exec_next _ _, by decide +kernel⟩

/-- R345 M1 and R293: the same bits, 001, spell no code of `sparse`: with all eight bits in IN the step halts MALFORMED, cut
short after three it halts END_INPUT; at the end of IN `PC.RDV` is MALFORMED either way (R164). -/
theorem test_decStep_noCode :
    (after .decStep { decS [0x20] with preset := sparse }).halt = .malformed ∧
    (after .decStep { decS [0x01] with roff := 5, preset := sparse }).halt = .endInput ∧
    (after .pcRdv { decS [0x01] with roff := 5, preset := sparse }).status = .malformed := by
  decide +kernel

theorem witness_CodeFormsReturnTheirValue : (decS []).canDecode ∧ 65535 < 2 ^ countWidth 4 := by decide +kernel

/-- Each with exactly the room it needs, and with one byte less; a frequent substring that is absent. -/
theorem witness_CharacterFormsOutputTheirBytes :
    let s : State := { decS [] with opos := 63 }
    let u : State := { decS [] with opos := 62 }
    s.running ∧ s.room 1 ∧ u.room 2 ∧ s.overrun 2 ∧ s.curSet = .alpha ∧ s.upper = false ∧
    (s.preset.symbol .alpha 1 = .chr 0x20 ∧ (1 : Fin 28) ≠ 0) ∧
    ({ s with curSet := .num }.running ∧ s.preset.symbol .num 1 = .chr 0x2C) ∧
    (2 ≤ (2 : Fin 28).val ∧ s.preset.symbol .alpha 2 = .chr 0x65) ∧ s.preset.symbol .sym 0 = .chr 0x22 ∧
    (s.preset.freq[(2 : Fin 6)] = some (bytes [0x3C, 0x2F]) ∧ u.room (bytes [0x3C, 0x2F]).length ∧
      s.overrun (bytes [0x3C, 0x2F]).length ∧ s.preset.places (.freq 2) = [(.sym, 27)]) ∧
    (s.preset.freq[(3 : Fin 6)] = some (bytes [0x3D, 0x22]) ∧ s.preset.places (.freq 3) = [(.num, 23)]) ∧
    (let p : Preset := { Preset.default with freq := Vector.replicate 6 none }
     { s with preset := p }.running ∧ p.freq[(2 : Fin 6)] = none ∧ p.places (.freq 2) = [(.sym, 27)] ∧
       p.freq[(3 : Fin 6)] = none ∧ p.places (.freq 3) = [(.num, 23)]) := by
  decide +kernel

/-- A state in which a switch to a set stands at `ROFF` and a whole token begins with it. -/
abbrev switchThere (s : State) (h : SetId) (i : Instr) : Prop :=
  s.running ∧ s.preset.wf = true ∧ switchBits s.preset s.curSet h <+: remainingBits s ∧ wireForm .token s = some i

theorem witness_SetFormsMoveTheSetState :
    ((decS []).running ∧ (decS []).curSet = .alpha ∧ (decS []).upper = false) ∧
    ({ decS [] with upper := true }.running ∧ { decS [] with upper := true }.upper = true) ∧
    ({ decS [] with curSet := .num }.running ∧ { decS [] with curSet := .num }.curSet ≠ .alpha) ∧
    (let s : State := { decS [0xFD, 0xC0] with curSet := .delta }
     s.running ∧ s.curSet = .delta ∧ s.preset.wf = true ∧ escapeBits 1 ++ s.preset.h .delta <+: remainingBits s) ∧
    (let s : State := { decS [0xFC, 0x00] with curSet := .delta }
     s.running ∧ escapeBits 1 ++ s.preset.h .alpha <+: remainingBits s) ∧
    (let s : State := { decS [0x1B] with opos := 63 }
     s.running ∧ s.curSet ≠ .delta ∧ s.preset.wf = true ∧ s.room 1 ∧ s.preset.symbol .sym 6 = .chr 0x3A ∧
       s.preset.v 0 ++ s.preset.h .sym ++ s.preset.v 6 <+: remainingBits s) := by
  decide +kernel

/-- A switch to NUM after two shifts (bits 00 00 00 10); the four tails of the bare switch, from
ALPHA and NUM, a transient token among them; the tails of DELTA's switch. -/
theorem witness_SetFormsMoveTheSetState_tails :
    (let s : State := decS [0x02]
     s.running ∧ s.curSet = .alpha ∧ s.upper = false ∧ s.preset.wf = true ∧
       s.preset.v 0 ++ s.preset.h .alpha ++ s.preset.v 0 ++ s.preset.h .num <+: remainingBits s) ∧
    (switchThere (decS [0x1B]) .sym (.symSymbol 6) ∧ switchThere (decS [0x24]) .num (.numSymbol 1) ∧
      switchThere { decS [0x30, 0x20] with curSet := .num } .dict (.backref0 5 5) ∧
      switchThere (decS [0x38, 0x08]) .delta (.uni1 (.tier0 false 1))) ∧
    (switchThere { decS [0xFC, 0xD8] with curSet := .delta } .sym (.symSymbol 6) ∧
      switchThere { decS [0xFD, 0x20] with curSet := .delta } .num (.numSymbol 1) ∧
      switchThere { decS [0xFD, 0x81] with curSet := .delta } .dict (.backref0 5 5)) := by
  decide +kernel

/-- The codepoints 0x80 and `CP_MAX` with exactly the room they need and with one byte less; the ones just outside. -/
theorem witness_DeltaFormsOutputTheCodepoint :
    (let s : State := { decS [] with prevCp := 0x7F, opos := 62 }
     s.running ∧ deltaTokHead (.tier0 false 1) = .delta 1 ∧ 0x80 ≤ (s.prevCp : Int) + 1 ∧
       s.room (utf8 ((s.prevCp : Int) + 1).toNat).length ∧
       { s with opos := 63 }.overrun (utf8 ((s.prevCp : Int) + 1).toNat).length ∧ s.curSet ≠ .delta) ∧
    (let s : State := { decS [] with prevCp := 0x10FFFE, opos := 60, curSet := .delta }
     s.running ∧ (s.prevCp : Int) + 1 ≤ 0x10FFFF ∧ s.room (utf8 ((s.prevCp : Int) + 1).toNat).length ∧
       { s with opos := 64 }.overrun (utf8 ((s.prevCp : Int) + 1).toNat).length) ∧
    ((({ decS [] with prevCp := 0x7E } : State).prevCp : Int) + 1 < 0x80 ∧
      0x10FFFF < (({ decS [] with prevCp := 0x10FFFF } : State).prevCp : Int) + 1) ∧
    ((4 : Fin 5) ≠ 1 ∧ { decS [] with opos := 63 }.room 1 ∧ { decS [] with opos := 64 }.overrun 1) := by
  decide +kernel

/-- A distance equal to the plaintext and one beyond; the end of a line and one beyond, the last line and one beyond; an
output with exactly the room and with one byte less; nothing to repeat. -/
theorem witness_CopyFormsRepeatEarlierBytes :
    (copied.running ∧ copied.out.wf = true ∧ copied.lhen = false ∧ 4 ≤ 5 ∧ 5 ≤ copied.opos ∧ copied.room 59 ∧
      copied.overrun 60 ∧ copied.opos < 6) ∧
    (let s : State := { copied with lhen := true, lh := history }
     s.running ∧ s.out.wf = true ∧ s.lhen = true ∧ 1 + 4 ≤ s.opos ∧ s.opos < 2 + 4 ∧ s.room 59 ∧ s.overrun 60 ∧
       s.lh[0]? = some (history.getD 0 []) ∧ 6 + 5 ≤ (history.getD 0 []).length ∧ { s with opos := 59 }.room 5 ∧
       { s with opos := 60 }.overrun 5 ∧ (history.getD 0 []).length < 7 + 5 ∧ s.lh.length ≤ 1) ∧
    (copied.opos ≠ 0 ∧ { copied with opos := 60 }.room 4 ∧ { copied with opos := 61 }.overrun 4 ∧
      (decS []).running ∧ (decS []).opos = 0) := by
  decide +kernel

/-- Each with exactly the room it needs and with one byte less; template 4 is absent, template 3 has eight positions. -/
theorem witness_EscFormsOutputTheirPayload :
    (decS []).running ∧
    (([15] : List (BitVec 4)) ≠ [] ∧ { decS [] with opos := 63 }.room ([15] : List (BitVec 4)).length ∧
      { decS [] with opos := 64 }.overrun ([15] : List (BitVec 4)).length) ∧
    ((List.replicate 32 (0 : BitVec 4)).length = 32 ∧ { decS [] with opos := 28 }.room 36 ∧
      { decS [] with opos := 29 }.overrun 36) ∧
    (bytes [0] ≠ [] ∧ { decS [] with opos := 63 }.room (bytes [0]).length ∧
      { decS [] with opos := 64 }.overrun (bytes [0]).length) ∧
    (let t : ByteStr := bytes [0x74, 0x66, 0x3A, 0x72, 0x66, 0x3A, 0x72, 0x66]
     (decS []).preset.tmpl[(3 : Fin 5)] = some t ∧ 8 ≤ t.length ∧ { decS [] with opos := 64 }.room (t.length - 8) ∧
       digitsFit (placeholderWidths (t.take (t.length - 8))) [] = true ∧
       digitsFit (placeholderWidths (t.take (t.length - 0))) [3, 15, 7, 15, 7, 15] = true ∧
       { decS [] with opos := 57 }.overrun (t.length - 0) ∧ t.length < 9) ∧
    (decS []).preset.tmpl[(4 : Fin 5)] = none := by
  decide +kernel

theorem witness_MarkerTerminatorAndPadding :
    (decS []).running ∧ (encS.canEncode ∧ { encS with magicLen := 8, woff := 504 }.fits 8) ∧
    ((8 - { encS with woff := 505 }.woff % 8) % 8 = 7 ∧ { encS with woff := 505 }.fits 7) := by
  decide +kernel

theorem witness_WireFormsFrame :
    exec (.rpt 4) copied = .next (after (.rpt 4) copied) ∧ exec .hDict (decS []) = .next (after .hDict (decS [])) ∧
      (commandNumber (.rpt 4) = none ∧ Instr.rpt 4 ≠ .magic ∧ Instr.rpt 4 ≠ .pad ∧ 4 < copied.opos ∧
        (after (.rpt 4) copied).opos ≤ 9) ∧
      (commandNumber .hDict = none ∧ Instr.hDict ≠ .magic ∧ Instr.hDict ≠ .pad ∧
        readerOf .hDict ∉ [Reader.token, .switch, .delta]) :=
  ⟨exec_next _ _, exec_next _ _, by decide +kernel⟩

/-- What one block appended, stored as another's IN. -/
def reader (e' : State) : State :=
  { State.reset with
    ready := true, mode := .dec, ocap := 64, ilen := (e'.woff + 7) / 8, inp := e'.out }

theorem carried (e e' : State) (h : e.woff = 0) : carries e e' (reader e') := by
  refine ⟨?_, ?_, fun k _ _ => rfl⟩
  · rw [h]; rfl
  · simp only [reader]; omega

/-- The greatest count. -/
theorem witness_CountsRoundTripThroughTheStream :
    let e : State := { encS with a0 := 67731 }
    let e' := after .cntEnc e
    exec .cntEnc e = .next e' ∧ carries e e' (reader e') ∧ e.canEncode ∧ e.out.wf = true ∧ e'.status = .ok ∧
      (reader e').canDecode :=
  ⟨exec_next _ _, carried _ _ rfl, by decide +kernel⟩

/-- Hypotheses of the lock-step statement on one command and state; `exec_next` and `carried` give the rest. -/
abbrev lockStep (i : Instr) (e : State) : Prop :=
  let e' := after i e
  let d := { reader e' with curSet := e.curSet, upper := e.upper }
  e.canEncode ∧ e.out.wf = true ∧ e'.status = .ok ∧ d.running ∧ d.preset = e.preset ∧ d.curSet = e.curSet ∧
    d.upper = e.upper ∧ d.prevCp = e.prevCp ∧ d.lhen = e.lhen ∧ d.room 1

/-- A command of one token that the automaton ends with OK. -/
abbrev oneToken (i : Instr) (e : State) : Prop :=
  lockStep i e ∧ (after .decStep { reader (after i e) with curSet := e.curSet, upper := e.upper }).status = .ok

/-- A transient codepoint from ALPHA, the last codepoint in DELTA, a frequent substring of NUM, all-uppercase mode and ENTERD
from ALPHA; the literals of up to three tokens; all-uppercase mode and ENTERD from NUM with `UPPER` set; the terminator. -/
theorem witness_TokensDecodeInLockStep :
    (oneToken .tkUni1 { encS with a0 := 0x80 } ∧ oneToken .udlEnc { encS with a0 := 0x10FFFF, curSet := .delta } ∧
      oneToken .tkFreq { encS with a0 := 5 } ∧ oneToken .pcUpper { encS with a0 := 1 } ∧ oneToken .pcEnterd encS) ∧
    (lockStep .pcLit { encS with a0 := 0x7A, curSet := .num, upper := true } ∧
      lockStep .pcLit { encS with a0 := 0x41, curSet := .delta } ∧
      lockStep .pcUpper { encS with a0 := 0, curSet := .num, upper := true } ∧
      lockStep .pcEnterd { encS with curSet := .num, upper := true } ∧ lockStep .pcTerm encS) ∧
    encS.RegistersInRange ∧ (encS.preset.wf = true ∧ symbolsPlaced encS.preset) ∧
    carries { encS with a0 := 0x80 } (after .tkUni1 { encS with a0 := 0x80 })
      { reader (after .tkUni1 { encS with a0 := 0x80 }) with curSet := .alpha, upper := false } :=
  ⟨⟨by decide +kernel, by decide +kernel, by decide +kernel, by decide +kernel, by decide +kernel⟩,
    ⟨by decide +kernel, by decide +kernel, by decide +kernel, by decide +kernel, by decide +kernel⟩,
    by constructor <;> decide +kernel, by decide +kernel, carried { encS with a0 := 0x80 } _ rfl⟩

theorem witness_LiteralsRoundTripThroughTheStream :
    let e : State := { encS with a0 := 0x7E }
    let e' := after .pcLit e
    let d := reader e'
    exec .pcLit e = .next e' ∧ carries e e' d ∧ horizontalShort e.preset ∧ e.canEncode ∧ e.out.wf = true ∧
      e.preset.wf = true ∧ e.curSet = .alpha ∧ e.upper = false ∧ e'.status = .ok ∧ d.running ∧ d.preset = e.preset ∧
      d.curSet = .alpha ∧ d.upper = false ∧ d.room 1 :=
  ⟨exec_next _ _, carried _ _ rfl, by intro h; cases h <;> decide +kernel, by decide +kernel⟩

/-- `aaaaaaaaaa`: a match of five bytes at the cursor 5, its source adjacent. -/
theorem witness_MatchesRestoreTheText :
    let e : State := encIn (List.replicate 10 0x61)
    let d : State := { decS [] with opos := 5, out := Memory.fill [] 0 (bytes (List.replicate 5 0x61)) }
    isCandidate e d.opos ⟨5, 5, 0⟩ ∧ (d.running ∧ d.lhen = e.lhen ∧ d.lh = e.lh ∧ d.room 5 ∧ d.out.wf = true) ∧
      ∀ a, a < d.opos → d.out.read a = e.inp.read a :=
  ⟨⟨by decide, by decide, by decide, by decide, .inl (by decide +kernel)⟩, by decide +kernel, by decide +kernel⟩

end Sys2Proof.Tests
end

section
/-!
The memories: what reading gives after a write of a byte, of a byte string, of a bit and of a bit string.
-/

namespace Sys2Proof.Machine

/-- A memory above a bound holds nothing at or below it. -/
theorem Memory.read_of_above {m : Memory} {lo b : Nat} (h : Memory.above lo m = true) (hb : b ≤ lo) :
    m.read b = unwritten := by
  induction m with
  | nil => rfl
  | cons c m ih =>
    obtain ⟨hc, hm⟩ : lo < c.1 ∧ Memory.above lo m = true := by simpa [Memory.above] using h
    rw [Memory.read, if_neg (by omega), ih hm]

/-- A cell put in front of a memory above it reads as its byte, whether or not it is listed. -/
theorem Memory.read_cons {m : Memory} {a : Nat} (v : Byte) (b : Nat) (h : Memory.above a m = true) :
    (Memory.cons a v m).read b = if b = a then v else m.read b := by
  unfold Memory.cons
  split
  case isTrue hv =>
    split
    case isTrue hb => rw [Memory.read_of_above h (by omega), hv]
    case isFalse => rfl
  case isFalse => rfl

/-- A byte written reads back and no other byte changes (R9). -/
theorem Memory.read_write {m : Memory} (h : m.wf = true) (a : Nat) (v : Byte) (b : Nat) :
    (m.write a v).read b = if b = a then v else m.read b := by
  induction m with
  | nil => exact Memory.read_cons v b rfl
  | cons c m ih =>
    obtain ⟨ha, -, hm⟩ : Memory.above c.1 m = true ∧ c.2 ≠ unwritten ∧ Memory.wf m = true := by
      simpa [Memory.wf, and_assoc] using h
    have hread (x : Nat) : Memory.read (c :: m) x = if x = c.1 then c.2 else Memory.read m x := rfl
    rw [Memory.write]
    split
    case isTrue hlt =>
      refine Memory.read_cons v b ?_
      simpa [Memory.above, hlt] using Memory.above_mono (Nat.le_of_lt hlt) ha
    case isFalse =>
      split
      case isTrue heq =>
        subst heq
        rw [Memory.read_cons v b ha, hread]
        split <;> rfl
      case isFalse hne =>
        rw [Memory.read, ih hm, hread]
        by_cases hb : b = c.1
        · simp [hb, Ne.symm hne]
        · simp [hb]

/-- A byte string written stands at its address on, and no other byte changes (R67). -/
theorem Memory.read_fill {m : Memory} (h : m.wf = true) (a : Nat) (bs : ByteStr) (b : Nat) :
    (m.fill a bs).read b = if a ≤ b ∧ b < a + bs.length then bs.getD (b - a) 0 else m.read b := by
  induction bs generalizing m a with
  | nil => rw [if_neg (by simp), Memory.fill]
  | cons x bs ih =>
    rw [Memory.fill, ih (Memory.write_wf h), Memory.read_write h, List.length_cons]
    by_cases hb : b = a
    · subst hb
      rw [if_neg (by omega), if_pos rfl, if_pos (by omega), Nat.sub_self, List.getD_cons_zero]
    · rw [if_neg hb]
      by_cases hi : a + 1 ≤ b ∧ b < a + 1 + bs.length
      · rw [if_pos hi, if_pos (by omega), show b - a = (b - (a + 1)) + 1 by omega, List.getD_cons_succ]
      · rw [if_neg hi, if_neg (by omega)]

/-- Settles O12: a write of a byte by the order of the cells, of a byte string by induction on it. -/
theorem memoryReadsBackWhatWasWritten : Obligations.MemoryReadsBackWhatWasWritten :=
  fun _ a h => ⟨fun v b => Memory.read_write h a v b, fun bs b => Memory.read_fill h a bs b⟩

/-- Setting one bit of a byte gives that bit its value and keeps the others. -/
theorem setBitTo_getLsbD (x : Byte) {b j : Nat} (v : Bool) (hj : j < 8) :
    (setBitTo x b v).getLsbD j = if j = b then v else x.getLsbD j := by
  have hbit : (1#8 <<< b).getLsbD j = decide (j = b) := by
    simp only [BitVec.getLsbD_shiftLeft, BitVec.getLsbD_one, hj]
    by_cases h : j = b
    · simp [h]
    · simp [h]; omega
  cases v with
  | false =>
    simp only [setBitTo, Bool.false_eq_true, if_false, BitVec.getLsbD_and, BitVec.getLsbD_not, hbit, hj]
    split <;> simp [*]
  | true =>
    simp only [setBitTo, if_true, BitVec.getLsbD_or, hbit]
    split <;> simp [*]

/-- The bits of a byte written, and all others, after the write (R60). -/
theorem Memory.bit_write {m : Memory} (h : m.wf = true) (a : Nat) (v : Byte) (k : Nat) :
    (m.write a v).bit k = if k / 8 = a then v.getLsbD (7 - k % 8) else m.bit k := by
  simp only [Memory.bit, Memory.read_write h]
  split <;> rfl

/-- One bit of an append (R121): it stands at its offset, the rest of a byte it begins is zero, all else is kept. -/
theorem Memory.bit_putBit {m : Memory} (h : m.wf = true) (o : Nat) (v : Bool) (k : Nat) :
    (m.putBit o v).bit k =
      if k = o then v else if o % 8 = 0 ∧ k / 8 = o / 8 then false else m.bit k := by
  have hput (c : Memory) (hc : c.wf = true) :
      (c.write (o / 8) (setBitTo (c.read (o / 8)) (7 - o % 8) v)).bit k = if k = o then v else c.bit k := by
    rw [Memory.bit_write hc]
    by_cases hk : k / 8 = o / 8
    · rw [if_pos hk, setBitTo_getLsbD _ _ (by omega), Memory.bit, hk]
      exact if_congr (by omega) rfl rfl
    · rw [if_neg hk, if_neg (by rintro rfl; exact hk rfl)]
  unfold Memory.putBit
  by_cases ho : o % 8 = 0
  · simp only [ho, if_true, true_and]
    rw [← ho, hput _ (Memory.write_wf h), Memory.bit_write h]
    simp
  · simp only [ho, if_false, false_and]
    exact hput m h

/-- One bit of an append changes no byte but its own (R121). -/
theorem Memory.read_putBit {m : Memory} (h : m.wf = true) {o a : Nat} (v : Bool) (ha : a ≠ o / 8) :
    (m.putBit o v).read a = m.read a := by
  unfold Memory.putBit
  split
  · simp [Memory.read_write (Memory.write_wf h), Memory.read_write h, ha]
  · simp [Memory.read_write h, ha]

/-- The last bit of an append is put after the others (R121). -/
theorem Memory.putBits_concat (m : Memory) (o : Nat) (bits : BitStr) (b : Bool) :
    m.putBits o (bits ++ [b]) = (m.putBits o bits).putBit (o + bits.length) b := by
  rw [Memory.putBits_append]; rfl

/-- The bits of an append stand at its offset on (R121, R123). -/
theorem Memory.bit_putBits_inside {m : Memory} (h : m.wf = true) (o : Nat) (bits : BitStr) {k : Nat}
    (hk : k < bits.length) : (m.putBits o bits).bit (o + k) = bits[k] := by
  induction bits using List.reverseRecOn with
  | nil => simp at hk
  | append_singleton bits b ih =>
    rw [Memory.putBits_concat, Memory.bit_putBit (Memory.putBits_wf h)]
    by_cases hl : k = bits.length
    · simp [hl]
    · have hlt : k < bits.length := by simp at hk; omega
      rw [if_neg (by omega), if_neg (by omega), ih hlt, List.getElem_append_left hlt]

/-- The bits below an append are kept (R121). -/
theorem Memory.bit_putBits_below {m : Memory} (h : m.wf = true) {o : Nat} (bits : BitStr) {k : Nat} (hk : k < o) :
    (m.putBits o bits).bit k = m.bit k := by
  induction bits using List.reverseRecOn with
  | nil => rfl
  | append_singleton bits b ih =>
    rw [Memory.putBits_concat, Memory.bit_putBit (Memory.putBits_wf h), if_neg (by omega), if_neg (by omega), ih]

/-- The bits after an append in a byte that it began are zero (R61, R121). -/
theorem Memory.bit_putBits_after {m : Memory} (h : m.wf = true) {o : Nat} (bits : BitStr) {k : Nat}
    (hk : o + bits.length ≤ k) (hlast : k / 8 < (o + bits.length + 7) / 8) (hbegun : (o + 7) / 8 ≤ k / 8) :
    (m.putBits o bits).bit k = false := by
  induction bits using List.reverseRecOn with
  | nil => simp at hlast; omega
  | append_singleton bits b ih =>
    simp only [List.length_append, List.length_singleton] at hk hlast
    rw [Memory.putBits_concat, Memory.bit_putBit (Memory.putBits_wf h), if_neg (by omega)]
    split
    · rfl
    · exact ih (by omega) (by omega)

/-- The bytes that an append does not reach are kept (R121). -/
theorem Memory.read_putBits_outside {m : Memory} (h : m.wf = true) {o : Nat} (bits : BitStr) {a : Nat}
    (ha : a < o / 8 ∨ (o + bits.length + 7) / 8 ≤ a) : (m.putBits o bits).read a = m.read a := by
  induction bits using List.reverseRecOn with
  | nil => rfl
  | append_singleton bits b ih =>
    simp only [List.length_append, List.length_singleton] at ha
    rw [Memory.putBits_concat, Memory.read_putBit (Memory.putBits_wf h) b (by omega), ih (by omega)]

/-- Settles O13: each of its four clauses by induction on the bits, the last one first. -/
theorem appendedBitsStandInOut : Obligations.AppendedBitsStandInOut :=
  fun _ o bits h =>
    ⟨fun _ hk => Memory.bit_putBits_inside h o bits hk, fun _ hk => Memory.bit_putBits_below h bits hk,
      fun _ hk hlast hbegun => Memory.bit_putBits_after h bits hk hlast hbegun,
      fun _ ha => Memory.read_putBits_outside h bits ha⟩

end Sys2Proof.Machine
end

section
/-!
What the block can do to its state. Every instruction but `INIT` and the marker is a sequence of a few kinds of write,
each with its guard (`Effect`); a property of the state that each of them keeps is kept by every step.
-/

namespace Sys2Proof.Machine

/-- Who writes the state: a command of ENC mode, a reading command or the body of a turn of the automaton, or the
automaton with its halt. -/
inductive Actor where
  | encoder | decoder | automaton

/-- The actor of the commands that are legal in a mode. -/
def actorOf : Mode → Actor
  | .enc => .encoder
  | .dec => .automaton

/-- One write of the state, with what holds when it is made: bits appended where they fit (R121), a byte written where
there is room (R128), a write rejected (R343), a bit read (R124), bits of a recognised form consumed, results (R21),
`SET`, `UPPER`, a codepoint in `PREV_CP` (R32 to R34), the first halt (R291), the status at the end (R340). -/
inductive Effect (p : Actor) : State → State → Prop where
  | append {s : State} (bits : BitStr) (hp : p = .encoder) (h : s.fits bits.length) : Effect p s (s.appended bits)
  | byte {s : State} (b : Byte) (hp : p ≠ .encoder) (h : s.room 1) : Effect p s (s.written [b])
  | reject {s : State} (n : Nat) (h : s.ovf = false) (hn : s.ocap < n) : Effect p s { s with ovf := true, need := n }
  | read {s : State} (hp : p ≠ .encoder) : Effect p s (s.afterRead 1)
  | skip {s : State} (n : Nat) (hp : p ≠ .encoder) : Effect p s { s with roff := s.roff + n }
  | answer {s : State} (a b c d : Word) : Effect p s { s with r0 := a, r1 := b, r2 := c, r3 := d }
  | rest {s : State} (c : Resting) : Effect p s { s with curSet := c }
  | upper {s : State} (b : Bool) : Effect p s { s with upper := b }
  | codepoint {s : State} (cp : Nat) (h : cp ≤ Config.cpMax) : Effect p s { s with prevCp := cp }
  | halt {s : State} (x : Halt) (hp : p = .automaton) (hr : s.halt = .run) (ho : x = .overflow → s.ovf = true) :
      Effect p s { s with halt := x }
  | finish {s : State} (e : Status) : Effect p s { s with status := e }

/-- Any number of writes. -/
abbrev Effects (p : Actor) : State → State → Prop := Relation.ReflTransGen (Effect p)

/-- What the decoder writes, the automaton may write. -/
theorem Effect.toAutomaton {s t : State} (h : Effect .decoder s t) : Effect .automaton s t := by
  cases h with
  | append _ hp _ => cases hp
  | byte b _ h => exact .byte b nofun h
  | reject n h hn => exact .reject n h hn
  | read _ => exact .read nofun
  | skip n _ => exact .skip n nofun
  | answer a b c d => exact .answer a b c d
  | rest c => exact .rest c
  | upper b => exact .upper b
  | codepoint cp h => exact .codepoint cp h
  | halt _ hp _ _ => cases hp
  | finish e => exact .finish e

/-- What every write keeps, any number of writes keep. -/
theorem Effects.keeps {p : Actor} {I : State → Prop} (hI : ∀ s t, Effect p s t → I s → I t) {s t : State}
    (h : Effects p s t) (hs : I s) : I t := by
  induction h with
  | refl => exact hs
  | tail _ he ih => exact hI _ _ he ih

/-- Nobody but the automaton writes `HALT` (R35, R291). -/
theorem Effects.halt_eq {p : Actor} {s t : State} (hp : p ≠ .automaton) (h : Effects p s t) : t.halt = s.halt := by
  refine h.keeps (I := fun u => u.halt = s.halt) (fun u v he hu => ?_) rfl
  cases he with
  | halt _ ha _ _ => exact absurd ha hp
  | _ => exact hu

/-- A run of an actor that ends with a status, OK where nothing was raised: its writes, and what OVERFLOW and any
other status say of `OVF` (R30, R121, R128). A halted automaton repeats OVERFLOW (R291). -/
structure Ran (p : Actor) (s : State) (e : Status) (t : State) : Prop where
  effects : Effects p s t
  overflow : e = .overflow → t.ovf = true ∨ t.halt = .overflow
  kept : e ≠ .overflow → t.ovf = s.ovf

/-- Nothing written. -/
theorem Ran.refl {p : Actor} (s : State) {e : Status} (he : e ≠ .overflow) : Ran p s e s :=
  ⟨.refl, fun h => absurd h he, fun _ => rfl⟩

/-- One write that leaves `OVF`. -/
theorem Ran.single {p : Actor} {s t : State} (h : Effect p s t) (ho : t.ovf = s.ovf) : Ran p s .ok t :=
  ⟨.single h, nofun, fun _ => ho⟩

/-- A run that raised nothing goes on. -/
theorem Ran.trans {p : Actor} {s t u : State} {e : Status} (h : Ran p s .ok t) (h' : Ran p t e u) : Ran p s e u :=
  ⟨h.effects.trans h'.effects, h'.overflow, fun he => (h'.kept he).trans (h.kept (by decide))⟩

/-- A run of the decoder is one of the automaton. -/
theorem Ran.toAutomaton {s t : State} {e : Status} (h : Ran .decoder s e t) : Ran .automaton s e t :=
  ⟨Relation.ReflTransGen.mono (fun _ _ => Effect.toAutomaton) _ _ h.effects, h.overflow, h.kept⟩

/-- `STATUS` written at the end of a run (R340). -/
theorem Ran.finish {p : Actor} {s t : State} {e : Status} (h : Ran p s e t) (x : Status) :
    Ran p s e { t with status := x } :=
  ⟨h.effects.tail (.finish x), h.overflow, h.kept⟩

/-- Results written at the end of a run. -/
theorem Ran.answer {p : Actor} {s t : State} {e : Status} (h : Ran p s e t) (a b c d : Word) :
    Ran p s e { t with r0 := a, r1 := b, r2 := c, r3 := d } :=
  ⟨h.effects.tail (.answer a b c d), h.overflow, h.kept⟩

/-- END_INPUT in place of a status that left `OVF` (R293). -/
theorem Ran.endInput {p : Actor} {s t : State} {e : Status} (h : Ran p s e t) (he : e ≠ .overflow) :
    Ran p s .endInput t :=
  ⟨h.effects, nofun, fun _ => h.kept he⟩

/-- Every run of a piece of pseudocode is a run of the actor. -/
def Runs (p : Actor) {α : Type} (c : Cmd α) : Prop :=
  ∀ s : State, match c s with
    | .ok _ t => Ran p s .ok t
    | .error e t => Ran p s e t

/-! ## The pseudocode's own constructs -/

section
variable {p : Actor} {α β : Type}

theorem Runs.bind {x : Cmd α} {f : α → Cmd β} (hx : Runs p x) (hf : ∀ a, Runs p (f a)) : Runs p (x >>= f) := by
  intro s
  have h := hx s
  rw [Cmd.bind_run]
  cases hr : x s with
  | error e t => simpa only [hr] using h
  | ok a t =>
    simp only [hr] at h ⊢
    have h' := hf a t
    cases hr' : f a t with
    | ok b u => simp only [hr'] at h' ⊢; exact h.trans h'
    | error e u => simp only [hr'] at h' ⊢; exact h.trans h'

/-- What follows a test runs only where the condition holds. -/
theorem Runs.require_bind {c : Prop} [Decidable c] {e : Status} {f : Unit → Cmd β} (he : e ≠ .overflow)
    (hf : c → Runs p (f ())) : Runs p (require c e >>= f) := by
  intro s
  rw [Cmd.bind_run, require_run]
  by_cases hc : c
  · simpa only [hc, if_true] using hf hc s
  · simpa only [hc, if_false] using Ran.refl s he

theorem Runs.ite {c : Prop} [Decidable c] {x y : Cmd α} (hx : Runs p x) (hy : Runs p y) :
    Runs p (if c then x else y) := by
  split <;> assumption

theorem Runs.pure (a : α) : Runs p (pure a) := fun s => .refl s (by decide)

theorem Runs.readState : Runs p readState := fun s => .refl s (by decide)

theorem Runs.look (f : State → α) : Runs p (look f) := fun s => .refl s (by decide)

theorem Runs.raise {e : Status} (he : e ≠ .overflow) : Runs p (raise e : Cmd α) := fun s => .refl s he

/-- A write that leaves `OVF`. -/
theorem Runs.update {f : State → State} (h : ∀ s, Effect p s (f s)) (ho : ∀ s, (f s).ovf = s.ovf) :
    Runs p (update f) :=
  fun s => .single (h s) (ho s)

end

/-! ## The registers and flags -/

section
variable {p : Actor}

theorem runs_opA0 : Runs p opA0 := .look _

theorem runs_opA1 : Runs p opA1 := .look _

theorem runs_opA2 : Runs p opA2 := .look _

theorem runs_opByte : Runs p opByte := .look _

theorem runs_setR0 (v : Nat) : Runs p (setR0 v) := fun _ => .single (.answer ..) rfl

theorem runs_setR1 (v : Nat) : Runs p (setR1 v) := fun _ => .single (.answer ..) rfl

theorem runs_setR2 (v : Nat) : Runs p (setR2 v) := fun _ => .single (.answer ..) rfl

theorem runs_setR3 (v : Nat) : Runs p (setR3 v) := fun _ => .single (.answer ..) rfl

theorem runs_setR1Signed (d : Int) : Runs p (setR1Signed d) := fun _ => .single (.answer ..) rfl

theorem runs_setUpper (b : Bool) : Runs p (setUpper b) := fun _ => .single (.upper b) rfl

theorem runs_setPrevCp {cp : Nat} (h : cp ≤ Config.cpMax) : Runs p (setPrevCp cp) :=
  fun _ => .single (.codepoint cp h) rfl

theorem runs_setCurSet (c : Resting) : Runs p (update (fun t => { t with curSet := c })) :=
  .update (fun _ => .rest c) fun _ => rfl

theorem runs_enterSet (h : SetId) : Runs p (enterSet h) := by
  cases h with
  | alpha => exact fun _ => .single (.rest .alpha) rfl
  | num => exact fun _ => .single (.rest .num) rfl
  | sym | dict | delta => exact .pure ()

theorem runs_eos : Runs p eos := by
  intro s
  rw [eos_run]
  by_cases h : s.reos = true
  · rw [if_pos h]
    exact .refl s (by decide)
  · rw [if_neg h]
    exact .refl s (by decide)

end

/-! ## The bit-stream unit and the emitters -/

/-- A write rejected for lack of capacity (R343). -/
theorem Ran.reject {p : Actor} {s : State} {n : Nat} (h : ¬ s.ovf = true) (hn : s.ocap < n) :
    Ran p s .overflow { s with ovf := true, need := n } :=
  ⟨.single (.reject n (by simpa using h) hn), fun _ => .inl rfl, fun h => absurd rfl h⟩

/-- A write after an overflow (R30). -/
theorem Ran.sticky {p : Actor} {s : State} (h : s.ovf = true) : Ran p s .overflow s :=
  ⟨.refl, fun _ => .inl h, fun h => absurd rfl h⟩

theorem runs_putBits (bits : BitStr) : Runs .encoder (putBits bits) := by
  intro s
  rw [putBits_run]
  by_cases ho : s.ovf = true
  · rw [if_pos ho]
    exact .sticky ho
  rw [if_neg ho]
  by_cases hf : 8 * s.ocap < s.woff + bits.length
  · rw [if_pos hf]
    exact .reject ho (by omega)
  · rw [if_neg hf]
    exact .single (.append bits rfl ⟨by simpa using ho, by omega⟩) rfl

theorem runs_putByte (b : Byte) : Runs .decoder (putByte b) := by
  intro s
  rw [putByte_run]
  by_cases ho : s.ovf = true
  · rw [if_pos ho]
    exact .sticky ho
  rw [if_neg ho]
  by_cases hf : s.ocap ≤ s.opos
  · rw [if_pos hf]
    exact .reject ho (by omega)
  · rw [if_neg hf]
    exact .single (.byte b nofun ⟨by simpa using ho, by omega⟩) rfl

theorem runs_putBytes (bs : ByteStr) : Runs .decoder (putBytes bs) := by
  induction bs with
  | nil => exact .pure ()
  | cons b bs ih => exact (runs_putByte b).bind fun _ => ih

theorem runs_emitSW (h : SetId) : Runs .encoder (emitSW h) :=
  Runs.readState.bind fun _ => (runs_putBits _).bind fun _ => runs_enterSet h

theorem runs_emitSWUnless (cur : Resting) (h : SetId) : Runs .encoder (emitSWUnless cur h) :=
  Runs.readState.bind fun _ => .ite (.pure ()) (runs_emitSW h)

theorem runs_emitV (v : Fin 28) : Runs .encoder (emitV v) :=
  (Runs.look _).bind fun _ => runs_putBits _

theorem runs_emitNUM (v : Fin 28) : Runs .encoder (emitNUM v) :=
  (runs_emitSWUnless _ _).bind fun _ => runs_emitV v

theorem runs_emitESC (k : Nat) : Runs .encoder (emitESC k) :=
  (runs_emitSW _).bind fun _ => (runs_emitV _).bind fun _ => runs_putBits _

theorem runs_padOut : Runs .encoder padOut :=
  Runs.readState.bind fun _ => .ite (.pure ()) (runs_putBits _)

theorem runs_emitDelta {cp : Nat} (h : cp ≤ Config.cpMax) : Runs .encoder (emitDelta cp) :=
  (Runs.look _).bind fun _ => (runs_putBits _).bind fun _ => runs_setPrevCp h

/-! ## The readers -/

theorem runs_getBit : Runs .decoder getBit := by
  intro s
  rw [getBit_run]
  exact .single (.read nofun) rfl

theorem runs_getBitsFrom (acc n : Nat) : Runs .decoder (getBitsFrom acc n) := by
  induction n generalizing acc with
  | zero => exact .pure acc
  | succ n ih => exact runs_getBit.bind fun _ => ih _

theorem runs_getBits (n : Nat) : Runs .decoder (getBits n) := runs_getBitsFrom 0 n

theorem runs_readCode {α : Type} (codes : List (α × BitStr)) (acc : BitStr) (n : Nat) :
    Runs .decoder (readCode codes acc n) := by
  induction n generalizing acc with
  | zero => exact .raise (by decide)
  | succ n ih =>
    refine runs_getBit.bind fun b => ?_
    cases findCode codes (acc ++ [b]) with
    | none => exact ih _
    | some x => exact .pure x

theorem runs_readH : Runs .decoder readH := (Runs.look _).bind fun _ => runs_readCode _ _ _

theorem runs_readV : Runs .decoder readV := (Runs.look _).bind fun _ => runs_readCode _ _ _

theorem runs_readStepFrom (i n : Nat) : Runs .decoder (readStepFrom i n) := by
  induction n generalizing i with
  | zero => exact .pure i
  | succ n ih => exact runs_getBit.bind fun _ => .ite (ih _) (.pure i)

theorem runs_readStep (c : Nat) : Runs .decoder (readStep c) := runs_readStepFrom 0 c

theorem runs_readCnt : Runs .decoder readCnt :=
  (runs_readStep 4).bind fun _ => (runs_getBits _).bind fun _ => .pure _

theorem runs_readDeltaHead : Runs .decoder readDeltaHead :=
  (runs_readStep 5).bind fun _ => .ite
    ((runs_readStep 4).bind fun _ => .pure _)
    (runs_getBit.bind fun _ => (runs_getBits _).bind fun _ => .pure _)

/-- A reader of a code raises nothing but MALFORMED (R163, R164). -/
theorem readCode_error {α : Type} {codes : List (α × BitStr)} {acc : BitStr} {n : Nat} {s t : State} {e : Status}
    (h : readCode codes acc n s = .error e t) : e = .malformed := by
  induction n generalizing acc s with
  | zero => cases h; rfl
  | succ n ih =>
    rw [readCode, Cmd.bind_run, getBit_run] at h
    cases hf : findCode codes (acc ++ [paddedBit s s.roff]) with
    | none => exact ih (by simpa only [hf] using h)
    | some x => simp only [hf, Cmd.pure_run] at h; cases h

/-- The read of a code by the automaton: its END_INPUT too writes nothing but what the reader wrote (R293). -/
theorem runs_readElement_readCode {α : Type} (f : State → List (α × BitStr)) :
    Runs .decoder (readElement (do let codes ← look f; readCode codes [] 8)) := by
  intro s
  have h := runs_readCode (f s) [] 8 s
  rw [readElement_run, Cmd.bind_run, look_run]
  dsimp only
  cases hr : readCode (f s) [] 8 s with
  | ok x t =>
    simp only [hr] at h ⊢
    by_cases he : t.reos = true
    · rw [if_pos he]
      exact h.endInput (by decide)
    · rw [if_neg he]
      exact h
  | error e t =>
    obtain rfl := readCode_error hr
    simp only [hr] at h ⊢
    by_cases he : t.reos = true
    · rw [if_pos he]
      exact h.endInput (by decide)
    · rw [if_neg he]
      exact h

theorem runs_readElement_readH : Runs .decoder (readElement readH) :=
  runs_readElement_readCode fun s => horizontalCodes s.preset

theorem runs_readElement_readV : Runs .decoder (readElement readV) :=
  runs_readElement_readCode fun s => verticalCodes s.preset

end Sys2Proof.Machine
end

section
/-!
Every piece of pseudocode of the encoder, the decoder and the automaton is a run of its actor, by the constructs it is
made of.
-/

namespace Sys2Proof.Machine

/-! ## The commands of ENC mode -/

theorem runs_litUpper (c : Byte) : Runs .encoder (litUpper c) :=
  (runs_emitSWUnless _ _).bind fun _ => Runs.readState.bind fun _ =>
    .ite (runs_emitV _) ((runs_putBits _).bind fun _ => runs_emitV _)

theorem runs_litSpace : Runs .encoder litSpace :=
  Runs.readState.bind fun _ => .ite (runs_emitV _) <| .ite (runs_putBits _) <|
    (runs_emitSWUnless _ _).bind fun _ => runs_emitV _

theorem runs_litOther (c : Byte) : Runs .encoder (litOther c) := by
  refine (Runs.look _).bind fun p => ?_
  cases (p.classOf c).1 with
  | alpha =>
    exact (runs_emitSWUnless _ _).bind fun _ => Runs.readState.bind fun _ => .ite
      ((runs_putBits _).bind fun _ => (runs_setUpper _).bind fun _ => runs_emitV _) (runs_emitV _)
  | sym => exact (runs_emitSW _).bind fun _ => runs_emitV _
  | num => exact (runs_emitSWUnless _ _).bind fun _ => runs_emitV _

theorem runs_literal (c : Byte) : Runs .encoder (literal c) :=
  (Runs.look _).bind fun _ => .ite (runs_litUpper c) <| .ite runs_litSpace <| .ite (runs_putBits _) <|
    .ite (runs_putBits _) (runs_litOther c)

theorem runs_upperOnCommand : Runs .encoder upperOnCommand :=
  (Runs.look _).bind fun _ => .require_bind (by decide) fun _ => (runs_emitSWUnless _ _).bind fun _ =>
    (Runs.look _).bind fun _ => (runs_putBits _).bind fun _ => runs_setUpper _

theorem runs_upperOffCommand : Runs .encoder upperOffCommand :=
  (Runs.look _).bind fun _ => .require_bind (by decide) fun _ => (runs_emitSWUnless _ _).bind fun _ =>
    (Runs.look _).bind fun _ => (runs_putBits _).bind fun _ => runs_setUpper _

theorem runs_setMatch {p : Actor} (m : Match) : Runs p (setMatch m) :=
  .ite ((runs_setR0 _).bind fun _ => (runs_setR1 _).bind fun _ => (runs_setR2 _).bind fun _ => runs_setR3 _)
    ((runs_setR0 _).bind fun _ => (runs_setR1 _).bind fun _ => (runs_setR2 _).bind fun _ => runs_setR3 _)

/-! ## The expansions of the automaton -/

theorem runs_copyBack (dist n : Nat) : Runs .decoder (copyBack dist n) := by
  induction n with
  | zero => exact .pure ()
  | succ n ih => exact (Runs.look _).bind fun _ => (runs_putByte _).bind fun _ => ih

theorem runs_copyRef (len x line : Nat) : Runs .decoder (copyRef len x line) := by
  refine Runs.readState.bind fun s => .ite (.require_bind (by decide) fun _ => runs_copyBack _ _) ?_
  cases s.lh[line - 1]? with
  | none => exact .raise (by decide)
  | some l => exact .require_bind (by decide) fun _ => runs_putBytes _

theorem runs_expandBackref : Runs .decoder expandBackref :=
  runs_readCnt.bind fun _ => runs_readCnt.bind fun _ => (Runs.look _).bind fun _ => .ite
    (runs_readCnt.bind fun _ => runs_eos.bind fun _ => runs_copyRef _ _ _)
    (runs_eos.bind fun _ => runs_copyRef _ _ _)

theorem runs_putRepeated (b : Byte) (n : Nat) : Runs .decoder (putRepeated b n) := by
  induction n with
  | zero => exact .pure ()
  | succ n ih => exact (runs_putByte _).bind fun _ => ih

theorem runs_repeatLast (r : Nat) : Runs .decoder (repeatLast r) :=
  Runs.readState.bind fun _ => .require_bind (by decide) fun _ => runs_putRepeated _ _

theorem runs_expandRepeat : Runs .decoder expandRepeat :=
  runs_readCnt.bind fun _ => runs_eos.bind fun _ => runs_repeatLast _

theorem runs_hexLoop (up : HexCase) (n : Nat) : Runs .decoder (hexLoop up n) := by
  induction n with
  | zero => exact .pure ()
  | succ n ih => exact (runs_getBits _).bind fun _ => runs_eos.bind fun _ => (runs_putByte _).bind fun _ => ih

theorem runs_expandHex (up : HexCase) : Runs .decoder (expandHex up) :=
  runs_readCnt.bind fun _ => runs_eos.bind fun _ => .require_bind (by decide) fun _ => runs_hexLoop _ _

theorem runs_putGuidNibble (up : HexCase) (q x : Nat) : Runs .decoder (putGuidNibble up q x) :=
  (runs_putByte _).bind fun _ => .ite (runs_putByte _) (.pure ())

theorem runs_guidLoop (up : HexCase) (q n : Nat) : Runs .decoder (guidLoop up q n) := by
  induction n generalizing q with
  | zero => exact .pure ()
  | succ n ih =>
    exact (runs_getBits _).bind fun _ => runs_eos.bind fun _ => (runs_putGuidNibble _ _ _).bind fun _ => ih _

theorem runs_templateLoop (ts : ByteStr) : Runs .decoder (templateLoop ts) := by
  induction ts with
  | nil => exact .pure ()
  | cons t ts ih =>
    rw [templateLoop]
    cases letterWidth t with
    | some w =>
      exact (runs_getBits _).bind fun _ => runs_eos.bind fun _ => (runs_putByte _).bind fun _ => ih
    | none => exact (runs_putByte _).bind fun _ => ih

theorem runs_expandTemplate : Runs .decoder expandTemplate := by
  refine (runs_readStep _).bind fun idx => runs_readCnt.bind fun _ => runs_eos.bind fun _ =>
    (Runs.look _).bind fun p => ?_
  cases templateOf p idx with
  | none => exact .raise (by decide)
  | some t => exact .require_bind (by decide) fun _ => runs_templateLoop _

theorem runs_expandFreq (i : Fin 6) : Runs .decoder (expandFreq i) := by
  refine (Runs.look _).bind fun p => ?_
  cases freqOf p i.val with
  | none => exact .raise (by decide)
  | some bs => exact runs_putBytes bs

theorem runs_binLoop (n : Nat) : Runs .decoder (binLoop n) := by
  induction n with
  | zero => exact .pure ()
  | succ n ih => exact (runs_getBits _).bind fun _ => runs_eos.bind fun _ => (runs_putByte _).bind fun _ => ih

theorem runs_expandBin : Runs .decoder expandBin :=
  runs_readCnt.bind fun _ => runs_eos.bind fun _ => .require_bind (by decide) fun _ => runs_binLoop _

theorem runs_expandEsc : Runs .decoder expandEsc := by
  refine (runs_readStep _).bind fun k => runs_eos.bind fun _ => ?_
  split
  · exact runs_expandTemplate
  · exact runs_expandHex _
  · exact runs_guidLoop _ _ _
  · exact runs_expandHex _
  · exact runs_guidLoop _ _ _
  · exact runs_expandBin

theorem runs_doSymbol (set : SymSet) (v : Fin 28) : Runs .decoder (doSymbol set v) := by
  refine Runs.readState.bind fun s => ?_
  cases s.preset.symbol set v with
  | chr c => exact runs_putByte _
  | crlf => exact (runs_putByte _).bind fun _ => runs_putByte _
  | freq i => exact runs_expandFreq i
  | rpt => exact runs_expandRepeat
  | esc => exact runs_expandEsc
  | term | switch | unassigned => exact .raise (by decide)

theorem runs_shiftedLetter (v : Fin 28) : Runs .decoder (shiftedLetter v) := by
  refine (Runs.look _).bind fun p => ?_
  cases p.symbol .alpha v with
  | chr c => exact runs_putByte _
  | _ => exact .raise (by decide)

theorem runs_tailAlpha : Runs .decoder tailAlpha :=
  Runs.readState.bind fun _ => .ite (runs_enterSet _) <| .ite (runs_setUpper _) <|
    runs_readElement_readV.bind fun v => .ite
      (runs_readElement_readH.bind fun _ => .require_bind (by decide) fun _ => runs_setUpper _)
      (.ite (runs_setCurSet _) (runs_shiftedLetter v))

theorem runs_deltaMagnitude (d : Int) : Runs .decoder (deltaMagnitude d) :=
  (Runs.look _).bind fun _ => .require_bind (by decide) fun h =>
    (runs_setPrevCp (Int.toNat_le.mpr h.2)).bind fun _ => runs_putBytes _

theorem runs_deltaEffect {onSwitch : Cmd Unit} (hs : Runs .decoder onSwitch) (x : DeltaHead) :
    Runs .decoder (deltaEffect onSwitch x) := by
  cases x with
  | delta d => exact runs_deltaMagnitude d
  | escape e => exact .ite hs (runs_putByte _)

theorem runs_transientDelta : Runs .decoder transientDelta :=
  runs_readDeltaHead.bind fun x => runs_eos.bind fun _ => runs_deltaEffect (.raise (by decide)) x

theorem runs_doTail (h : SetId) : Runs .decoder (doTail h) := by
  cases h with
  | alpha => exact runs_tailAlpha
  | sym => exact runs_readElement_readV.bind fun v => runs_doSymbol _ v
  | num => exact (runs_enterSet _).bind fun _ => runs_readElement_readV.bind fun v => runs_doSymbol _ v
  | dict => exact runs_expandBackref
  | delta => exact (Runs.look _).bind fun _ => .ite (.pure ()) runs_transientDelta

theorem runs_switchInDelta : Runs .decoder switchInDelta :=
  runs_readElement_readH.bind fun h => runs_doTail h

theorem runs_restingDelta : Runs .decoder restingDelta :=
  runs_readDeltaHead.bind fun x => runs_eos.bind fun _ => runs_deltaEffect runs_switchInDelta x

theorem runs_verticalToken (set : SymSet) : Runs .decoder (verticalToken set) :=
  runs_readElement_readV.bind fun v => .ite
    (runs_readElement_readH.bind fun h => runs_doTail h) (runs_doSymbol set v)

theorem runs_fetchAndRun : Runs .decoder fetchAndRun := by
  refine Runs.readState.bind fun s => .require_bind (by decide) fun _ => ?_
  cases restingSymbols s.curSet with
  | none => exact runs_restingDelta
  | some set => exact runs_verticalToken set

/-! ## The automaton -/

/-- What the decoder runs, the automaton may run. -/
theorem Runs.toAutomaton {α : Type} {c : Cmd α} (h : Runs .decoder c) : Runs .automaton c := by
  intro s
  have h := h s
  cases hr : c s with
  | ok a t => simp only [hr] at h ⊢; exact h.toAutomaton
  | error e t => simp only [hr] at h ⊢; exact h.toAutomaton

/-- The halt that a raised status becomes is the halt for overflow for OVERFLOW only (R291). -/
theorem Halt.ofStatus_overflow_iff {e : Status} : Halt.ofStatus e = .overflow ↔ e = .overflow := by
  cases e <;> decide

/-- The status of a halt is OVERFLOW for the halt for overflow only (R35). -/
theorem Halt.status_overflow_iff {x : Halt} : x.status = .overflow ↔ x = .overflow := by
  cases x <;> decide

/-- A turn of the automaton is its body's run, then `R0`, and the halt where a status was raised (R291, R292). -/
theorem runs_automaton {body : Cmd Unit} (hb : Runs .decoder body) : Runs .automaton (automaton body) := by
  intro s
  unfold automaton
  by_cases hr : s.halt = .run
  · rw [if_pos hr]
    have h := hb s
    cases hs : body s with
    | ok _ t => simp only [hs] at h ⊢; exact h.toAutomaton.answer _ _ _ _
    | error e t =>
      simp only [hs] at h ⊢
      have ht : t.halt = .run := (Effects.halt_eq (p := .decoder) nofun h.effects).trans hr
      have ho : e = .overflow → t.ovf = true := fun he => (h.overflow he).resolve_right (by simp [ht])
      have ha := h.toAutomaton.answer (BitVec.ofNat 32 (t.opos - s.opos)) t.r1 t.r2 t.r3
      exact ⟨ha.effects.tail (.halt (Halt.ofStatus e) rfl ht fun hx => ho (Halt.ofStatus_overflow_iff.mp hx)),
        fun he => .inl (ho he), ha.kept⟩
  · rw [if_neg hr]
    exact ⟨.single (.answer ..), fun h => .inr (Halt.status_overflow_iff.mp h), fun _ => rfl⟩

/-- A turn that ends with OVERFLOW leaves the automaton halted for it (R291). -/
theorem automaton_overflow {body : Cmd Unit} {s t : State} (h : automaton body s = .error .overflow t) :
    t.halt = .overflow := by
  unfold automaton at h
  by_cases hr : s.halt = .run
  · rw [if_pos hr] at h
    cases hs : body s with
    | ok _ u => simp only [hs] at h; cases h
    | error e u => simp only [hs] at h; cases h; rfl
  · rw [if_neg hr] at h
    injection h with he ht
    subst ht
    exact Halt.status_overflow_iff.mp he

/-- After a halt `DEC.RUN` takes no turn (R320). -/
theorem runLoop_halted (n : Nat) {s : State} (h : s.halt ≠ .run) : runLoop n s = s := by
  cases n with
  | zero => rfl
  | succ n => exact if_neg h

/-- The turns of `DEC.RUN` (R320): `OVF` is kept unless they end in the halt for overflow. -/
theorem runLoop_ran (n : Nat) (s : State) : Ran .automaton s (runLoop n s).halt.status (runLoop n s) := by
  induction n generalizing s with
  | zero => exact ⟨.refl, fun h => .inr (Halt.status_overflow_iff.mp h), fun _ => rfl⟩
  | succ n ih =>
    rw [runLoop]
    by_cases hr : s.halt = .run
    · rw [if_pos hr]
      have h := runs_automaton runs_fetchAndRun s
      cases hs : automaton fetchAndRun s with
      | ok _ t => simp only [hs] at h; exact h.trans (ih t)
      | error e t =>
        simp only [hs] at h
        have ht := ih t
        refine ⟨h.effects.trans ht.effects, ht.overflow, fun ho => (ht.kept ho).trans (h.kept fun he => ?_)⟩
        subst he
        have htl := automaton_overflow hs
        rw [stateAfter, runLoop_halted n (by simp [htl]), htl] at ho
        exact ho rfl
    · rw [if_neg hr]
      exact ⟨.refl, fun h => .inr (Halt.status_overflow_iff.mp h), fun _ => rfl⟩

theorem runs_runToHalt : Runs .automaton runToHalt := fun s => (runLoop_ran (runBound s) s).answer _ _ _ _

/-! ## The wire forms -/

theorem runs_consume (bits : BitStr) : Runs .decoder (consume bits) := fun _ => .single (.skip _ nofun) rfl

theorem runs_consumeForm (i : Instr) : Runs .decoder (consumeForm i) := fun _ => .single (.skip _ nofun) rfl

theorem runs_bareSymbol (v : Fin 28) : Runs .decoder (bareSymbol v) := by
  refine (Runs.look _).bind fun cur => ?_
  cases restingSymbols cur with
  | some set => exact runs_doSymbol set v
  | none => exact .raise (by decide)

theorem runs_inNum {body : Cmd Unit} (h : Runs .decoder body) : Runs .decoder (inNum body) :=
  (runs_enterSet .num).bind fun _ => h

theorem runs_deltaForm (d : DeltaTok) : Runs .decoder (deltaForm d) :=
  (Runs.look _).bind fun _ => runs_deltaEffect (.ite runs_switchInDelta (.raise (by decide))) _

theorem runs_putNibbles (up : HexCase) (ns : List (BitVec 4)) : Runs .decoder (putNibbles up ns) := by
  induction ns with
  | nil => exact .pure ()
  | cons x xs ih => exact (runs_consume _).bind fun _ => (runs_putByte _).bind fun _ => ih

theorem runs_hexForm (up : HexCase) (ns : List (BitVec 4)) : Runs .decoder (hexForm up ns) :=
  runs_inNum (.require_bind (by decide) fun _ => runs_putNibbles up ns)

theorem runs_putGuid (up : HexCase) (q : Nat) (ns : List (BitVec 4)) : Runs .decoder (putGuid up q ns) := by
  induction ns generalizing q with
  | nil => exact .pure ()
  | cons x xs ih => exact (runs_consume _).bind fun _ => (runs_putGuidNibble _ _ _).bind fun _ => ih _

theorem runs_guidForm (up : HexCase) (ns : List (BitVec 4)) : Runs .decoder (guidForm up ns) :=
  runs_inNum (runs_putGuid up 0 ns)

theorem runs_putRaw (bs : ByteStr) : Runs .decoder (putRaw bs) := by
  induction bs with
  | nil => exact .pure ()
  | cons b bs ih => exact (runs_consume _).bind fun _ => (runs_putByte _).bind fun _ => ih

theorem runs_binForm (bs : ByteStr) : Runs .decoder (binForm bs) :=
  runs_inNum (.require_bind (by decide) fun _ => runs_putRaw bs)

theorem runs_putTemplate (ts : ByteStr) (xs : List Nat) : Runs .decoder (putTemplate ts xs) := by
  induction ts generalizing xs with
  | nil => exact .pure ()
  | cons t ts ih =>
    rw [putTemplate.eq_def]
    dsimp only
    cases letterWidth t with
    | none => exact (runs_putByte _).bind fun _ => ih xs
    | some w =>
      cases xs with
      | nil => exact .raise (by decide)
      | cons x xs => exact (runs_consume _).bind fun _ => (runs_putByte _).bind fun _ => ih xs

theorem runs_templateForm (idx : Fin 5) (rem : Nat) (digits : List Nat) :
    Runs .decoder (templateForm idx rem digits) := by
  refine runs_inNum ((Runs.look _).bind fun p => ?_)
  cases templateOf p idx.val with
  | none => exact .raise (by decide)
  | some t => exact .require_bind (by decide) fun _ => runs_putTemplate _ _

theorem runs_freqForm (i : Fin 6) : Runs .decoder (freqForm i) := by
  refine (Runs.look _).bind fun p => ?_
  obtain ⟨set, v⟩ := p.pairOf (.freq i)
  cases set with
  | sym => exact runs_expandFreq i
  | alpha | num => exact runs_inNum (runs_expandFreq i)

/-! ## Every instruction but `INIT` and the marker -/

/-- A command ends with its pseudocode's run and `STATUS` (R340, R341). -/
theorem endCommand_ran {p : Actor} {body : Cmd Unit} (h : Runs p body) (s : State) :
    Ran p s (endCommand body s).status (endCommand body s) := by
  have h := h s
  unfold endCommand
  cases hs : body s with
  | ok _ t => simp only [hs] at h; exact h.finish .ok
  | error e t => simp only [hs] at h; exact h.finish e

/-- A command of one mode is a run of that mode's actor; in the other mode it only writes `STATUS` (R347). -/
theorem modeCommand_ran {m : Mode} {body : Cmd Unit} {s t : State} (h : modeCommand m body s = .next t)
    (hb : Runs (actorOf m) body) : Ran (actorOf s.mode) s t.status t := by
  by_cases hs : s.ready = true ∧ s.mode = m
  · rw [modeCommand_run hs.1 hs.2] at h
    cases h
    rw [hs.2]
    exact endCommand_ran hb s
  · rw [modeCommand_refused hs] at h
    cases h
    exact (Ran.refl s (e := .refused) (by decide)).finish .refused

theorem encCommand_ran {body : Cmd Unit} {s t : State} (h : modeCommand .enc body s = .next t)
    (hb : Runs .encoder body) : Ran (actorOf s.mode) s t.status t :=
  modeCommand_ran h hb

theorem decCommand_ran {body : Cmd Unit} {s t : State} (h : modeCommand .dec body s = .next t)
    (hb : Runs .decoder body) : Ran (actorOf s.mode) s t.status t :=
  modeCommand_ran h hb.toAutomaton

/-- A command of both modes (R347). -/
theorem anyModeCommand_ran {body : Cmd Unit} {s t : State} (h : anyModeCommand body s = .next t)
    (hb : Runs (actorOf s.mode) body) : Ran (actorOf s.mode) s t.status t := by
  cases h
  refine endCommand_ran (.bind (fun u => ?_) fun _ => hb) s
  rw [checkReady_run]
  by_cases hr : u.ready = true
  · rw [if_pos hr]
    exact .refl u (by decide)
  · rw [if_neg hr]
    exact .refl u (by decide)

/-- A code read by its unit command. -/
theorem readForm_ran {i : Instr} {v : Nat} {s t : State} (h : readForm i v s = .next t) :
    Ran (actorOf s.mode) s t.status t :=
  decCommand_ran h <| (runs_consumeForm i).bind fun _ => runs_setR0 v

/-- A form executed by the automaton. -/
theorem tokenForm_ran {i : Instr} {body : Cmd Unit} {s t : State} (h : tokenForm i body s = .next t)
    (hb : Runs .decoder body) : Ran (actorOf s.mode) s t.status t :=
  modeCommand_ran h <| Runs.bind (p := .automaton) .readState fun _ => .require_bind (by decide) fun _ =>
    runs_automaton ((runs_consumeForm i).bind fun _ => hb)

end Sys2Proof.Machine
end

section
/-!
Every instruction but `INIT` and the marker is a run: one arm per constructor of `Instr`.
-/

namespace Sys2Proof.Machine

theorem execPcClass_ran {s t : State} (h : execPcClass s = .next t) : Ran (actorOf s.mode) s t.status t :=
  anyModeCommand_ran h <| runs_opByte.bind fun _ => (Runs.look _).bind fun _ => (runs_setR0 _).bind fun _ =>
    (runs_setR1 _).bind fun _ => runs_setR2 _

theorem execPcCtrl_ran {s t : State} (h : execPcCtrl s = .next t) : Ran (actorOf s.mode) s t.status t :=
  encCommand_ran h <| runs_opA0.bind fun _ => .require_bind (by decide) fun _ => Runs.readState.bind fun _ =>
    .ite (runs_putBits _) ((runs_emitSW _).bind fun _ => runs_emitV _)

theorem execPcUpper_ran {s t : State} (h : execPcUpper s = .next t) : Ran (actorOf s.mode) s t.status t :=
  encCommand_ran h <| runs_opA0.bind fun _ => .ite runs_upperOnCommand <| .ite runs_upperOffCommand <|
    .raise (by decide)

theorem execPcEnterd_ran {s t : State} (h : execPcEnterd s = .next t) : Ran (actorOf s.mode) s t.status t :=
  have hEnter (u : State) : Runs .encoder (do
      putBits (shiftBits u.preset ++ u.preset.v spaceIndex)
      update (fun t => { t with curSet := .delta })) :=
    (runs_putBits _).bind fun _ => runs_setCurSet _
  encCommand_ran h <| (Runs.look _).bind fun _ => .require_bind (by decide) fun _ =>
    (runs_emitSWUnless _ _).bind fun _ => Runs.readState.bind fun u =>
      .ite ((runs_putBits _).bind fun _ => (runs_setUpper _).bind fun _ => hEnter u) (hEnter u)

theorem execPcTerm_ran {s t : State} (h : execPcTerm s = .next t) : Ran (actorOf s.mode) s t.status t :=
  encCommand_ran h <| (Runs.look _).bind fun _ => (runs_emitNUM _).bind fun _ => runs_padOut.bind fun _ =>
    (Runs.look _).bind fun _ => runs_setR0 _

theorem execUdlEnc_ran {s t : State} (h : execUdlEnc s = .next t) : Ran (actorOf s.mode) s t.status t :=
  encCommand_ran h <| runs_opA0.bind fun _ => (Runs.look _).bind fun _ => .require_bind (by decide) fun _ =>
    .require_bind (by decide) fun hcp => runs_emitDelta (Int.ofNat_le.mp hcp.2)

theorem runs_applyUnitDelta (d : Int) : Runs .decoder (applyUnitDelta d) :=
  (Runs.look _).bind fun _ => .require_bind (by decide) fun hcp =>
    (runs_setPrevCp (Int.toNat_le.mpr hcp.2)).bind fun _ => (runs_setR0 _).bind fun _ =>
      (runs_setR1Signed _).bind fun _ => runs_setR2 _

theorem execUdlDec_ran {s t : State} (h : execUdlDec s = .next t) : Ran (actorOf s.mode) s t.status t := by
  refine decCommand_ran h <| runs_readDeltaHead.bind fun x => ?_
  cases x with
  | escape e => exact (runs_setR0 _).bind fun _ => (runs_setR1 _).bind fun _ => runs_setR2 _
  | delta d => exact runs_applyUnitDelta d

theorem execUdlEsc_ran {s t : State} (h : execUdlEsc s = .next t) : Ran (actorOf s.mode) s t.status t :=
  encCommand_ran h <| runs_opA0.bind fun _ => runs_opA1.bind fun _ => (Runs.look _).bind fun _ =>
    .require_bind (by decide) fun _ => .require_bind (by decide) fun _ =>
      .ite (.require_bind (by decide) fun _ => runs_emitSW _) (runs_putBits _)

theorem execTkBackref_ran {s t : State} (h : execTkBackref s = .next t) : Ran (actorOf s.mode) s t.status t := by
  refine encCommand_ran h <| runs_opA0.bind fun len => runs_opA1.bind fun dist => runs_opA2.bind fun line =>
    .require_bind (by decide) fun _ => (Runs.look _).bind fun x? => ?_
  cases x? with
  | none => exact .raise (by decide)
  | some x =>
    exact (runs_emitSW _).bind fun _ => (runs_putBits _).bind fun _ => (runs_putBits _).bind fun _ =>
      (Runs.look _).bind fun _ => .ite (runs_putBits _) (.pure ())

theorem execTkHex_ran {s t : State} (h : execTkHex s = .next t) : Ran (actorOf s.mode) s t.status t := by
  refine encCommand_ran h <| runs_opA0.bind fun pos => runs_opA1.bind fun n => runs_opA2.bind fun up =>
    Runs.readState.bind fun u => ?_
  cases caseOfNumber up with
  | none => exact .raise (by decide)
  | some c =>
    refine .require_bind (by decide) fun _ => ?_
    cases hexValues (runOf u pos n) c with
    | none => exact .raise (by decide)
    | some xs => exact (runs_emitESC _).bind fun _ => (runs_putBits _).bind fun _ => runs_putBits _

theorem execTkGuid_ran {s t : State} (h : execTkGuid s = .next t) : Ran (actorOf s.mode) s t.status t := by
  refine encCommand_ran h <| runs_opA0.bind fun pos => runs_opA1.bind fun up =>
    Runs.readState.bind fun u => ?_
  cases caseOfNumber up with
  | none => exact .raise (by decide)
  | some c =>
    refine .require_bind (by decide) fun _ => ?_
    cases guidValues c 0 (runOf u pos 36) with
    | none => exact .raise (by decide)
    | some xs => exact (runs_emitESC _).bind fun _ => runs_putBits _

theorem execTkTmpl_ran {s t : State} (h : execTkTmpl s = .next t) : Ran (actorOf s.mode) s t.status t := by
  refine encCommand_ran h <| runs_opA0.bind fun idx => runs_opA1.bind fun _ => runs_opA2.bind fun _ =>
    Runs.readState.bind fun u => ?_
  cases templateOf u.preset idx with
  | none => exact .raise (by decide)
  | some tmpl =>
    exact .require_bind (by decide) fun _ => .require_bind (by decide) fun _ => (runs_emitESC _).bind fun _ =>
      (runs_putBits _).bind fun _ => (runs_putBits _).bind fun _ => runs_putBits _

theorem execTkFreq_ran {s t : State} (h : execTkFreq s = .next t) : Ran (actorOf s.mode) s t.status t := by
  refine encCommand_ran h <| runs_opA0.bind fun i => (Runs.look _).bind fun p =>
    .require_bind (by decide) fun _ => ?_
  obtain ⟨set, v⟩ := p.pairOf (freqSymbol i)
  cases set with
  | sym => exact (runs_emitSW _).bind fun _ => runs_emitV v
  | alpha | num => exact runs_emitNUM v

theorem execTkBin_ran {s t : State} (h : execTkBin s = .next t) : Ran (actorOf s.mode) s t.status t :=
  encCommand_ran h <| runs_opA0.bind fun _ => runs_opA1.bind fun _ => Runs.readState.bind fun _ =>
    .require_bind (by decide) fun _ => (runs_emitESC _).bind fun _ => (runs_putBits _).bind fun _ => runs_putBits _

theorem execTkUni1_ran {s t : State} (h : execTkUni1 s = .next t) : Ran (actorOf s.mode) s t.status t :=
  encCommand_ran h <| runs_opA0.bind fun _ => Runs.readState.bind fun _ => .require_bind (by decide) fun _ =>
    .require_bind (by decide) fun hcp => (runs_putBits _).bind fun _ => runs_emitDelta (Int.ofNat_le.mp hcp.2)

/-- The padding in ENC is `Pad()` as a command of ENC mode (R162, log entry 13). -/
theorem execPad_enc {s : State} (h : s.mode = .enc) : execPad s = modeCommand .enc padOut s := by
  by_cases hr : s.ready = true <;> simp [execPad, anyModeCommand, modeCommand, endCommand, h, hr]

/-- The padding in DEC is an empty turn of the automaton as a command of DEC mode (log entry 13). -/
theorem execPad_dec {s : State} (h : s.mode = .dec) : execPad s = modeCommand .dec (automaton (pure ())) s := by
  by_cases hr : s.ready = true <;> simp [execPad, anyModeCommand, modeCommand, endCommand, h, hr]

theorem execPad_ran {s t : State} (h : execPad s = .next t) : Ran (actorOf s.mode) s t.status t := by
  cases hm : s.mode with
  | enc => rw [execPad_enc hm] at h; exact hm ▸ encCommand_ran h runs_padOut
  | dec => rw [execPad_dec hm] at h; exact hm ▸ modeCommand_ran h (runs_automaton (.pure ()))

/-- Every instruction but `INIT` and the marker is a run of the actor of the current mode, which ends with the status it
raised in `STATUS` (R340). -/
theorem exec_ran {i : Instr} {s t : State} (hi : i ≠ .init) (hm : i ≠ .magic) (h : exec i s = .next t) :
    Ran (actorOf s.mode) s t.status t := by
  cases i with
  | init => exact absurd rfl hi
  | magic => exact absurd rfl hm
  | illegal n => cases h; exact (Ran.refl s (e := .refused) (by decide)).finish .refused
  | bsAppend =>
    exact encCommand_ran h <| (Runs.look _).bind fun _ => runs_opA1.bind fun _ => .require_bind (by decide) fun _ =>
      (runs_putBits _).bind fun _ => (Runs.look _).bind fun _ => runs_setR0 _
  | bsRdbit => exact decCommand_ran h <| runs_getBit.bind fun _ => runs_setR0 _
  | bsRd8 => exact decCommand_ran h <| (Runs.look _).bind fun _ => runs_setR0 _
  | bsRdint =>
    exact decCommand_ran h <| runs_opA0.bind fun _ => .require_bind (by decide) fun _ =>
      (runs_getBits _).bind fun _ => runs_setR0 _
  | outPutb =>
    exact decCommand_ran h <| runs_opByte.bind fun _ => (runs_putByte _).bind fun _ =>
      (Runs.look _).bind fun _ => runs_setR0 _
  | pcClass => exact execPcClass_ran h
  | pcSw =>
    exact encCommand_ran h <| runs_opA0.bind fun _ => (Runs.look _).bind fun _ => .require_bind (by decide) fun _ =>
      runs_emitSW _
  | pcLit =>
    exact encCommand_ran h <| runs_opByte.bind fun _ => .require_bind (by decide) fun _ => runs_literal _
  | pcCtrl => exact execPcCtrl_ran h
  | pcUpper => exact execPcUpper_ran h
  | pcEnterd => exact execPcEnterd_ran h
  | pcTerm => exact execPcTerm_ran h
  | pcRdh => exact decCommand_ran h <| runs_readH.bind fun _ => runs_setR0 _
  | pcRdv => exact decCommand_ran h <| runs_readV.bind fun _ => runs_setR0 _
  | stepEnc =>
    exact encCommand_ran h <| runs_opA0.bind fun _ => runs_opA1.bind fun _ => .require_bind (by decide) fun _ =>
      runs_putBits _
  | stepDec =>
    exact decCommand_ran h <| runs_opA0.bind fun _ => .require_bind (by decide) fun _ =>
      (runs_readStep _).bind fun _ => runs_setR0 _
  | cntEnc =>
    exact encCommand_ran h <| runs_opA0.bind fun _ => .require_bind (by decide) fun _ => runs_putBits _
  | cntDec => exact decCommand_ran h <| runs_readCnt.bind fun _ => runs_setR0 _
  | udlEnc => exact execUdlEnc_ran h
  | udlDec => exact execUdlDec_ran h
  | udlEsc => exact execUdlEsc_ran h
  | tkBackref => exact execTkBackref_ran h
  | tkRepeat =>
    exact encCommand_ran h <| runs_opA0.bind fun _ => .require_bind (by decide) fun _ => (Runs.look _).bind fun _ =>
      (runs_emitNUM _).bind fun _ => runs_putBits _
  | tkHex => exact execTkHex_ran h
  | tkGuid => exact execTkGuid_ran h
  | tkTmpl => exact execTkTmpl_ran h
  | tkFreq => exact execTkFreq_ran h
  | tkBin => exact execTkBin_ran h
  | tkUni1 => exact execTkUni1_ran h
  | smFind =>
    exact encCommand_ran h <| runs_opA0.bind fun _ => Runs.readState.bind fun _ => .require_bind (by decide) fun _ =>
      runs_setMatch _
  | decStep => exact modeCommand_ran h (runs_automaton runs_fetchAndRun)
  | decRun => exact modeCommand_ran h runs_runToHalt
  | pad => exact execPad_ran h
  | dltTier0 | dltTier1 | dltTier2 | dltTier3 | dltTier4 | desc0 | desc1 | desc2 | desc3 | desc4 =>
    exact tokenForm_ran h (runs_deltaForm _)
  | symbol v => exact tokenForm_ran h (runs_bareSymbol v)
  | swResting x | swDelta x => exact tokenForm_ran h (runs_doTail x)
  | shift v => exact tokenForm_ran h (runs_shiftedLetter v)
  | upperOn | upperOff => exact tokenForm_ran h (runs_setUpper _)
  | toAlpha => exact tokenForm_ran h (runs_enterSet _)
  | enterd => exact tokenForm_ran h (runs_setCurSet _)
  | symSymbol v => exact tokenForm_ran h (runs_doSymbol _ v)
  | numSymbol v => exact tokenForm_ran h (runs_inNum (runs_doSymbol _ v))
  | backref0 | backref1 => exact tokenForm_ran h (runs_copyRef _ _ _)
  | uni1 d => exact tokenForm_ran h (runs_deltaEffect (.raise (by decide)) _)
  | rpt r => exact tokenForm_ran h (runs_inNum (runs_repeatLast r))
  | term => exact tokenForm_ran h (runs_inNum (.raise (by decide)))
  | esc0Template idx rem digits => exact tokenForm_ran h (runs_templateForm idx rem digits)
  | esc1HexLower ns | esc3HexUpper ns => exact tokenForm_ran h (runs_hexForm _ ns)
  | esc2GuidLower ns | esc4GuidUpper ns => exact tokenForm_ran h (runs_guidForm _ ns)
  | esc5Binary bs => exact tokenForm_ran h (runs_binForm bs)
  | freq0 | freq1 | freq2 | freq3 | freq4 | freq5 => exact tokenForm_ran h (runs_freqForm _)
  | ctrlLf | ctrlTab | ctrlCr => exact tokenForm_ran h (runs_putByte _)
  | ctrlCrlf => exact tokenForm_ran h (runs_putBytes _)
  | _ => exact readForm_ran h

end Sys2Proof.Machine
end

section
/-!
What a step can do, and the invariants that follow.
-/

namespace Sys2Proof.Machine

/-! ## `INIT` and the step -/

/-- A call started: the registers of a fresh call with parameters that `INIT` accepts (R371), the marker skipped in
DEC. -/
inductive CallStart (s : State) : State → Prop where
  | mk (m : Mode) (i o g r : Nat) (l : Bool) (hi : i ≤ Config.maxBytes) (ho : o ≤ Config.maxBytes) (hg : g ≤ 8)
      (hw : s.preset.wf = true) (hr : m = .enc → r = 0) : CallStart s { freshCall m i o g l s with roff := r }

/-- The marker on a fresh call (R93): skipped in DEC, an append in ENC. -/
theorem marker_effects {s : State} {m : Mode} {i o g : Nat} {l : Bool} (hi : i ≤ Config.maxBytes)
    (ho : o ≤ Config.maxBytes) (hg : g ≤ 8) (hw : s.preset.wf = true) :
    ∃ u p, CallStart s u ∧ Effects p u (endCommand marker (freshCall m i o g l s)) := by
  cases m with
  | enc =>
    refine ⟨freshCall .enc i o g l s, .encoder, .mk .enc i o g 0 l hi ho hg hw fun _ => rfl, ?_⟩
    exact (endCommand_ran (runs_putBits (List.replicate g true)) (freshCall .enc i o g l s)).effects
  | dec =>
    exact ⟨_, .decoder, .mk .dec i o g g l hi ho hg hw nofun, .single (.finish .ok)⟩

/-- `INIT` is refused or out of range and writes `STATUS` only, or it starts a call and appends the marker (R371). -/
theorem execInit_cases {s t : State} (h : execInit s = .next t) :
    ∃ u p, (u = s ∨ CallStart s u) ∧ Effects p u t := by
  have hrefused (e : Status) (hs : endCommand initCall s = { s with status := e }) :
      ∃ u p, (u = s ∨ CallStart s u) ∧ Effects p u (endCommand initCall s) :=
    ⟨s, .encoder, .inl rfl, hs ▸ .single (.finish e)⟩
  cases h
  cases hm : modeOfNumber s.a0.toNat with
  | none => exact hrefused .range (by simp [endCommand, initCall, hm])
  | some m =>
    by_cases hb : s.a1.toNat ≤ Config.maxBytes ∧ s.a2.toNat ≤ Config.maxBytes
    case neg => exact hrefused .range (by simp [endCommand, initCall, hm, hb])
    by_cases hf : flagsMagicLen s.a3 ≤ 8 ∧ flagsReserved s.a3 = 0
    case neg => exact hrefused .range (by simp [endCommand, initCall, hm, hb, hf])
    by_cases hw : s.preset.wf = true
    case neg => exact hrefused .refused (by simp [endCommand, initCall, hm, hb, hf, hw])
    have hcall : endCommand initCall s =
        endCommand marker (freshCall m s.a1.toNat s.a2.toNat (flagsMagicLen s.a3) (flagsLhen s.a3) s) := by
      simp [endCommand, initCall, hm, hb, hf, hw]
    rw [hcall]
    obtain ⟨u, p, hu, he⟩ := marker_effects (m := m) (l := flagsLhen s.a3) hb.1 hb.2 hf.1 hw
    exact ⟨u, p, .inr hu, he⟩

/-- The marker's row is no host command (R90). -/
theorem decodeCommand_ne_magic (n : BitVec 8) : decodeCommand n ≠ .magic := by
  unfold decodeCommand
  split <;> exact nofun

/-- Everything a step can do: nothing, or from the latched state, or from a call just started, some writes. -/
theorem step_cases {s t : State} (h : step s = .next t) :
    t = s ∨ ∃ w rest u p, (u = s.latch w rest ∨ CallStart (s.latch w rest) u) ∧ Effects p u t := by
  unfold step at h
  cases hh : s.host with
  | nil => simp only [hh] at h; cases h; exact .inl rfl
  | cons w rest =>
    simp only [hh] at h
    refine .inr ⟨w, rest, ?_⟩
    by_cases hi : decodeCommand w.cmd = .init
    · rw [hi] at h
      exact execInit_cases h
    · exact ⟨_, _, .inl rfl, (exec_ran hi (decodeCommand_ne_magic w.cmd) h).effects⟩

/-- What the host's register writes, every write of the block and the start of a call keep, every step keeps. -/
theorem step_keeps {I : State → Prop} (hlatch : ∀ s w rest, I s → I (s.latch w rest))
    (hstart : ∀ s u, CallStart s u → I s → I u) (heffect : ∀ p s t, Effect p s t → I s → I t)
    {s t : State} (hs : I s) (h : step s = .next t) : I t := by
  rcases step_cases h with rfl | ⟨w, rest, u, p, hu, he⟩
  · exact hs
  · have hl := hlatch s w rest hs
    refine he.keeps (heffect p) ?_
    rcases hu with rfl | hu
    · exact hl
    · exact hstart _ u hu hl

/-! ## The invariants -/

/-- Every write of the block keeps both memories in canonical form: the bits of an append and a byte are the only ones
of a memory (R121, R128). -/
theorem Effect.keeps_memoriesCanonical {p : Actor} {s t : State} (h : Effect p s t) (hs : s.MemoriesCanonical) :
    t.MemoriesCanonical := by
  cases h with
  | append bits _ _ => exact ⟨hs.inp, Memory.putBits_wf hs.out⟩
  | byte b _ _ => exact ⟨hs.inp, Memory.fill_wf hs.out⟩
  | _ => exact ⟨hs.inp, hs.out⟩

/-- Settles O8: neither the host's writes nor the start of a call write a memory, and every write of the block keeps the
form. -/
theorem stepKeepsMemoriesCanonical : Obligations.StepKeepsMemoriesCanonical := by
  intro s t
  refine step_keeps (fun s w rest hs => ⟨hs.inp, hs.out⟩) ?_ fun _ _ _ => Effect.keeps_memoriesCanonical
  rintro s _ ⟨⟩ hs
  exact ⟨hs.inp, hs.out⟩

/-- Every write of the block keeps the registers in range: an append fits and a byte has room (R121, R128), and a
codepoint is checked before it is kept (R205, R208, R305). -/
theorem Effect.keeps_registersInRange {p : Actor} {s t : State} (h : Effect p s t) (hs : s.RegistersInRange) :
    t.RegistersInRange := by
  cases h with
  | append bits _ hf => exact { hs with woff := hf.2 }
  | byte b _ hr => exact { hs with opos := hr.2 }
  | codepoint cp hcp => exact { hs with prevCp := hcp }
  | _ => exact { hs with }

/-- The registers of a call just started are in range (R371). -/
theorem CallStart.registersInRange {s u : State} (h : CallStart s u) : u.RegistersInRange := by
  obtain ⟨m, i, o, g, r, l, hi, ho, hg, -, -⟩ := h
  exact ⟨hi, ho, hg, Nat.zero_le _, Nat.zero_le _, Nat.zero_le _⟩

/-- Settles O9: the host's writes leave the ranged registers, a call starts with them in range, and every write of the
block keeps them so. -/
theorem stepKeepsRegistersInRange : Obligations.StepKeepsRegistersInRange := by
  intro s t
  exact step_keeps (fun s w rest hs => { hs with }) (fun _ _ h _ => h.registersInRange)
    fun _ _ _ => Effect.keeps_registersInRange

end Sys2Proof.Machine
end

section
/-!
What the writes of a run leave unchanged: a byte written changes no other byte of a memory, in canonical form or not,
and what every write of an actor keeps its runs keep.
-/

namespace Sys2Proof.Machine

/-! ## The memories, in canonical form or not -/

/-- A cell put in front changes no other byte. -/
theorem Memory.read_cons_other {a b : Nat} (m : Memory) (v : Byte) (h : b ≠ a) :
    (Memory.cons a v m).read b = m.read b := by
  unfold Memory.cons
  split
  · rfl
  · simp [Memory.read, h]

/-- A byte written changes no other byte (R9). -/
theorem Memory.read_write_other {a b : Nat} (m : Memory) (v : Byte) (h : b ≠ a) : (m.write a v).read b = m.read b := by
  induction m with
  | nil => exact Memory.read_cons_other [] v h
  | cons c m ih =>
    rw [Memory.write]
    split
    · exact Memory.read_cons_other _ v h
    · split
      case isTrue heq => rw [Memory.read_cons_other m v h, Memory.read, if_neg (heq ▸ h)]
      case isFalse => rw [Memory.read, Memory.read, ih]

/-- One bit of an append changes no byte but its own (R121). -/
theorem Memory.read_putBit_other {o a : Nat} (m : Memory) (v : Bool) (h : a ≠ o / 8) :
    (m.putBit o v).read a = m.read a := by
  unfold Memory.putBit
  split
  · rw [Memory.read_write_other _ _ h, Memory.read_write_other _ _ h]
  · exact Memory.read_write_other _ _ h

/-- The bytes that an append does not reach are kept (R121). -/
theorem Memory.read_putBits_other {o a : Nat} (m : Memory) (bits : BitStr)
    (ha : a < o / 8 ∨ (o + bits.length + 7) / 8 ≤ a) : (m.putBits o bits).read a = m.read a := by
  induction bits generalizing m o with
  | nil => rfl
  | cons b bits ih =>
    simp only [List.length_cons] at ha
    rw [Memory.putBits, ih _ (by omega), Memory.read_putBit_other _ _ (by omega)]

/-! ## What every write of an actor keeps -/

/-- A value of the state that no write of the actor changes, its runs do not change. -/
theorem Effects.value_eq {p : Actor} {β : Type} {f : State → β} (hf : ∀ s t, Effect p s t → f t = f s) {s t : State}
    (h : Effects p s t) : f t = f s :=
  h.keeps (I := fun u => f u = f s) (fun u v he hu => (hf u v he).trans hu) rfl

/-- What the host owns: its commands and operands, IN, the Preset and the line history (R20, R21, R38). -/
def State.hostPart (s : State) :
    List HostWrite × Word × Word × Word × Word × BitVec 8 × Memory × Preset × List ByteStr :=
  (s.host, s.a0, s.a1, s.a2, s.a3, s.cmd, s.inp, s.preset, s.lh)

/-- The parameters of the call (R6, R25, R26). -/
def State.callPart (s : State) : Mode × Nat × Nat × Nat × Bool × Bool :=
  (s.mode, s.ilen, s.ocap, s.magicLen, s.lhen, s.ready)

/-- What an encoder leaves as `INIT` set it: the reader, the writer of bytes and the automaton (R41). -/
def State.decoderPart (s : State) : Nat × Nat × Bool × Halt := (s.roff, s.opos, s.reos, s.halt)

theorem Effects.hostPart_eq {p : Actor} {s t : State} (h : Effects p s t) : t.hostPart = s.hostPart :=
  h.value_eq fun _ _ he => by cases he <;> rfl

theorem Effects.callPart_eq {p : Actor} {s t : State} (h : Effects p s t) : t.callPart = s.callPart :=
  h.value_eq fun _ _ he => by cases he <;> rfl

theorem Effects.ocap_eq {p : Actor} {s t : State} (h : Effects p s t) : t.ocap = s.ocap :=
  congrArg (fun q => q.2.2.1) h.callPart_eq

/-- An encoder reads no bit, writes no byte and does not halt. -/
theorem Effects.decoderPart_eq {s t : State} (h : Effects .encoder s t) : t.decoderPart = s.decoderPart :=
  h.value_eq fun _ _ he => by
    cases he with
    | byte _ hp _ | read hp | skip _ hp => exact absurd rfl hp
    | halt _ hp _ _ => cases hp
    | _ => rfl

/-- Nobody but an encoder appends. -/
theorem Effects.woff_eq {p : Actor} {s t : State} (h : Effects p s t) (hp : p ≠ .encoder) : t.woff = s.woff :=
  h.value_eq (f := State.woff) fun _ _ he => by
    cases he with
    | append _ ha _ => exact absurd ha hp
    | _ => rfl

/-! ## Sticky flags -/

/-- Only `INIT` clears `REOS` (R31). -/
theorem Effects.reos_sticky {p : Actor} {s t : State} (h : Effects p s t) (hs : s.reos = true) : t.reos = true :=
  h.keeps (I := fun u => u.reos = true) (fun _ _ he hu => by cases he <;> simp_all) hs

/-- Only `INIT` clears a halt (R35, R291). -/
theorem Effects.halt_sticky {p : Actor} {s t : State} (h : Effects p s t) (hs : s.halt ≠ .run) : t.halt = s.halt :=
  h.keeps (I := fun u => u.halt = s.halt) (fun u v he hu => by
    cases he with
    | halt _ _ hr _ => exact absurd (hu ▸ hr) hs
    | _ => exact hu) rfl

/-- What a write of OUT changes: `OVF` with `NEED`, the bytes and the cursors (R22, R27, R29, R30). -/
def State.outputPart (s : State) : Bool × Nat × Memory × Nat × Nat := (s.ovf, s.need, s.out, s.woff, s.opos)

/-- After an overflow nothing is written to OUT (R30). -/
theorem Effects.outputPart_sticky {p : Actor} {s t : State} (h : Effects p s t) (hs : s.ovf = true) :
    t.outputPart = s.outputPart :=
  h.keeps (I := fun u => u.outputPart = s.outputPart) (fun u v he hu => by
    have ho : u.ovf = true := (congrArg Prod.fst hu).trans hs
    cases he with
    | append _ _ hf => simp [hf.1] at ho
    | byte _ _ hr => simp [hr.1] at ho
    | reject _ hr _ => simp [hr] at ho
    | _ => exact hu) rfl

/-- `NEED` is written with `OVF`, above the capacity (R343). -/
theorem Effects.need_of_ovf {p : Actor} {s t : State} (h : Effects p s t) (hs : s.ovf = false) :
    (t.ovf = false → t.need = s.need) ∧ (t.ovf = true → t.ocap < t.need) :=
  h.keeps (I := fun u => (u.ovf = false → u.need = s.need) ∧ (u.ovf = true → u.ocap < u.need))
    (fun u v he hu => by
      cases he with
      | reject n _ hn => exact ⟨nofun, fun _ => hn⟩
      | _ => exact hu) ⟨fun _ => rfl, fun ho => by simp [hs] at ho⟩

/-! ## The bytes of OUT -/

/-- The cursors of OUT never go back (R27, R29). -/
theorem Effects.cursors_grow {p : Actor} {s t : State} (h : Effects p s t) : s.woff ≤ t.woff ∧ s.opos ≤ t.opos :=
  h.keeps (I := fun u => s.woff ≤ u.woff ∧ s.opos ≤ u.opos) (fun u v he hu => by
    cases he with
    | append => exact ⟨Nat.le_add_right_of_le hu.1, hu.2⟩
    | byte => exact ⟨hu.1, Nat.le_add_right_of_le hu.2⟩
    | _ => exact hu) ⟨Nat.le_refl _, Nat.le_refl _⟩

/-- No byte of OUT at or above `OCAP` is written (R71): an append fits and a byte has room. -/
theorem Effects.read_above_ocap {p : Actor} {s t : State} (h : Effects p s t) {a : Nat} (ha : s.ocap ≤ a) :
    t.out.read a = s.out.read a := by
  refine (h.keeps (I := fun u => u.ocap = s.ocap ∧ u.out.read a = s.out.read a) (fun u v he hu => ?_) ⟨rfl, rfl⟩).2
  cases he with
  | append bits _ hf =>
    have hfit := hf.2
    exact ⟨hu.1, (Memory.read_putBits_other _ _ (by omega)).trans hu.2⟩
  | byte b _ hr =>
    have hroom := hr.2
    exact ⟨hu.1, (Memory.read_write_other _ _ (by omega)).trans hu.2⟩
  | _ => exact hu

/-- An encoder writes no byte of OUT outside those of the bits it appends (R27, R121). -/
theorem Effects.read_outside_bits {s t : State} (h : Effects .encoder s t) {a : Nat}
    (ha : a < s.woff / 8 ∨ (t.woff + 7) / 8 ≤ a) : t.out.read a = s.out.read a := by
  induction h with
  | refl => rfl
  | tail hs he ih =>
    have hgrow := (Effects.cursors_grow hs).1
    cases he with
    | append bits _ _ =>
      rw [State.appended_woff] at ha
      exact (Memory.read_putBits_other _ _ (by omega)).trans (ih (by omega))
    | byte _ hp _ => exact absurd rfl hp
    | _ => exact ih ha

/-- A decoder writes no byte of OUT outside those it outputs (R29, R128). -/
theorem Effects.read_outside_bytes {p : Actor} {s t : State} (h : Effects p s t) (hp : p ≠ .encoder) {a : Nat}
    (ha : a < s.opos ∨ t.opos ≤ a) : t.out.read a = s.out.read a := by
  induction h with
  | refl => rfl
  | tail hs he ih =>
    have hgrow := (Effects.cursors_grow hs).2
    cases he with
    | append _ hq _ => exact absurd hq hp
    | byte b _ _ =>
      rw [State.written_opos, List.length_singleton] at ha
      exact (Memory.read_write_other _ _ (by omega)).trans (ih (by omega))
    | _ => exact ih ha

/-- An encoder keeps every bit below `WOFF` (R27, R120). -/
theorem Effects.bit_below_woff {s t : State} (h : Effects .encoder s t) (hs : s.MemoriesCanonical) {k : Nat}
    (hk : k < s.woff) : t.out.bit k = s.out.bit k := by
  induction h with
  | refl => rfl
  | tail hr he ih =>
    have hgrow := (Effects.cursors_grow hr).1
    have hwf := Effects.keeps (fun _ _ => Effect.keeps_memoriesCanonical) hr hs
    cases he with
    | append bits _ _ => exact (Memory.bit_putBits_below hwf.out bits (by omega)).trans ih
    | byte _ hp _ => exact absurd rfl hp
    | _ => exact ih

/-! ## Every instruction but `INIT` -/

/-- The marker in ENC is an append as a command of ENC mode (R93, log entry 13). -/
theorem execMagic_enc {s : State} (h : s.mode = .enc) :
    execMagic s = modeCommand .enc (putBits (List.replicate s.magicLen true)) s := by
  by_cases hr : s.ready = true <;> simp [execMagic, anyModeCommand, modeCommand, endCommand, marker, h, hr]

/-- The marker in DEC is skipped as a command of DEC mode (R93, log entry 13). -/
theorem execMagic_dec {s : State} (h : s.mode = .dec) :
    execMagic s = modeCommand .dec (update fun u => { u with roff := u.magicLen }) s := by
  by_cases hr : s.ready = true <;> simp [execMagic, anyModeCommand, modeCommand, endCommand, marker, h, hr]

/-- Every instruction but `INIT` is a run of the actor of the current mode, once `ROFF` stands where the marker in DEC
puts it (`exec_ran` for all but the marker). -/
theorem exec_ran_from_roff {i : Instr} {s t : State} (hi : i ≠ .init) (h : exec i s = .next t) :
    ∃ r, Ran (actorOf s.mode) { s with roff := r } t.status t := by
  by_cases hm : i = .magic
  case neg => exact ⟨s.roff, exec_ran hi hm h⟩
  subst hm
  have h : execMagic s = .next t := h
  obtain hmode | hmode : s.mode = .enc ∨ s.mode = .dec := by cases s.mode <;> simp
  · rw [execMagic_enc hmode] at h
    exact ⟨s.roff, encCommand_ran h (runs_putBits _)⟩
  · rw [execMagic_dec hmode] at h
    by_cases hr : s.ready = true
    · rw [modeCommand_run hr hmode] at h
      cases h
      exact ⟨s.magicLen, (Ran.refl { s with roff := s.magicLen } (e := .ok) nofun).finish .ok⟩
    · rw [modeCommand_refused (by simp [hr])] at h
      cases h
      exact ⟨s.roff, (Ran.refl s (e := .refused) nofun).finish .refused⟩

/-- In ENC every instruction but `INIT` is writes of the encoder. -/
theorem exec_effects_enc {i : Instr} {s t : State} (hi : i ≠ .init) (hm : s.mode = .enc) (h : exec i s = .next t) :
    ∃ r, Effects .encoder { s with roff := r } t := by
  obtain ⟨r, hr⟩ := exec_ran_from_roff hi h
  have ha : actorOf s.mode = .encoder := by rw [hm]; rfl
  exact ⟨r, ha ▸ hr.effects⟩

/-- In DEC every instruction but `INIT` is writes of the automaton. -/
theorem exec_effects_dec {i : Instr} {s t : State} (hi : i ≠ .init) (hm : s.mode = .dec) (h : exec i s = .next t) :
    ∃ r, Effects .automaton { s with roff := r } t := by
  obtain ⟨r, hr⟩ := exec_ran_from_roff hi h
  have ha : actorOf s.mode = .automaton := by rw [hm]; rfl
  exact ⟨r, ha ▸ hr.effects⟩

end Sys2Proof.Machine
end

section
/-!
`INIT`: its operand checks, its check of the Preset, and the call it starts.
-/

namespace Sys2Proof.Machine

/-- The operands that `INIT` accepts (R371). -/
abbrev State.initOperands (s : State) : Prop :=
  s.a0.toNat ≤ 1 ∧ s.a1.toNat ≤ 2 ^ 28 ∧ s.a2.toNat ≤ 2 ^ 28 ∧ s.a3.toNat % 16 ≤ 8 ∧ s.a3.toNat / 32 = 0

/-- The registers of the call that `INIT` starts in a mode (R371). -/
def State.called (s : State) (m : Mode) : State :=
  freshCall m s.a1.toNat s.a2.toNat (flagsMagicLen s.a3) (flagsLhen s.a3) s

/-- Two numbers name a mode (R371). -/
theorem modeOfNumber_eq_none {n : Nat} (h : 1 < n) : modeOfNumber n = none := by
  unfold modeOfNumber
  split
  · omega
  · omega
  · rfl

/-- Operands outside their bounds end RANGE (R371). -/
theorem execInit_range {s : State} (h : ¬ s.initOperands) : execInit s = .next { s with status := .range } := by
  suffices hi : initCall s = .error .range s by rw [execInit, endCommand_error hi]
  by_cases h0 : 1 < s.a0.toNat
  · simp [initCall, modeOfNumber_eq_none h0]
  obtain ⟨m, hm⟩ : ∃ m, modeOfNumber s.a0.toNat = some m := by
    obtain h0 | h0 : s.a0.toNat = 0 ∨ s.a0.toNat = 1 := by omega
    · exact ⟨.enc, by rw [h0]; rfl⟩
    · exact ⟨.dec, by rw [h0]; rfl⟩
  by_cases hb : s.a1.toNat ≤ Config.maxBytes ∧ s.a2.toNat ≤ Config.maxBytes
  · have hf : ¬ (flagsMagicLen s.a3 ≤ 8 ∧ flagsReserved s.a3 = 0) := fun hf =>
      h ⟨by omega, hb.1, hb.2, hf.1, hf.2⟩
    simp [initCall, hm, hb, hf]
  · simp [initCall, hm, hb]

/-- With operands in bounds the Preset is checked, and then the call is started (R371). -/
theorem initCall_inBounds {s : State} {m : Mode} (h : s.initOperands) (hm : modeOfNumber s.a0.toNat = some m) :
    initCall s = if s.preset.wf = true then marker (s.called m) else .error .refused s := by
  have hb : s.a1.toNat ≤ Config.maxBytes ∧ s.a2.toNat ≤ Config.maxBytes := ⟨h.2.1, h.2.2.1⟩
  have hf : flagsMagicLen s.a3 ≤ 8 ∧ flagsReserved s.a3 = 0 := h.2.2.2
  by_cases hw : s.preset.wf = true <;> simp [initCall, hm, hb, hf, hw, State.called]

/-- A Preset that fails its check ends REFUSED (R141, R371). -/
theorem execInit_refused {s : State} (h : s.initOperands) (hw : s.preset.wf = false) :
    execInit s = .next { s with status := .refused } := by
  obtain h0 | h0 : s.a0.toNat = 0 ∨ s.a0.toNat = 1 := by have := h.1; omega
  · rw [execInit, endCommand_error (by rw [initCall_inBounds h (m := .enc) (by rw [h0]; rfl), if_neg (by simp [hw])])]
  · rw [execInit, endCommand_error (by rw [initCall_inBounds h (m := .dec) (by rw [h0]; rfl), if_neg (by simp [hw])])]

/-- A call started in DEC skips the marker (R93, R371). -/
theorem execInit_dec {s : State} (h : s.initOperands) (hw : s.preset.wf = true) (h0 : s.a0 = 1) :
    execInit s = .next { s.called .dec with roff := flagsMagicLen s.a3, status := .ok } := by
  rw [execInit, endCommand, initCall_inBounds h (m := .dec) (by rw [h0]; rfl), if_pos hw]
  rfl

/-- A call started in ENC appends the marker (R93, R371). -/
theorem execInit_enc {s : State} (h : s.initOperands) (hw : s.preset.wf = true) (h0 : s.a0 = 0) :
    execInit s = .next (endCommand (putBits (List.replicate (flagsMagicLen s.a3) true)) (s.called .enc)) := by
  rw [execInit, endCommand, initCall_inBounds h (m := .enc) (by rw [h0]; rfl), if_pos hw]
  rfl

/-- Settles O24: the operands out of bounds, the Preset refused, and the call in each direction, with the marker's
append where it fits and where it does not. -/
theorem initStartsACall : Obligations.InitStartsACall := by
  refine fun s => ⟨execInit_range, fun h => ⟨execInit_refused h, fun hw f hf => ?_⟩⟩
  subst hf
  refine ⟨execInit_dec h hw, fun h0 => ⟨fun hfit => ?_, fun hunfit => ?_⟩⟩
  · refine (execInit_enc h hw h0).trans ?_
    rw [endCommand_ok (putBits_fits ⟨rfl, by simpa [State.called, flagsMagicLen] using hfit⟩)]
    rfl
  · refine (execInit_enc h hw h0).trans ?_
    obtain ⟨u, hu, ho⟩ := putBits_unfit (s := s.called .enc) (bits := List.replicate (flagsMagicLen s.a3) true)
      fun hf => by have := hf.2; simp [State.called, flagsMagicLen] at this; omega
    have hneed : (0 + (List.replicate (flagsMagicLen s.a3) true).length + 7) / 8 = 1 := by
      have hlen := h.2.2.2.1
      simp only [List.length_replicate, flagsMagicLen]
      omega
    rw [endCommand_error hu, ho, State.overflowed, if_neg (by simp [State.called])]
    simp only [State.called, freshCall_woff, hneed]
    rfl

/-- The end of an `INIT` that starts a call in ENC: the marker appended, where it fits (R93, R371). -/
def State.marked (s : State) : State :=
  endCommand (putBits (List.replicate (flagsMagicLen s.a3) true)) (s.called .enc)

theorem State.marked_effects (s : State) : Effects .encoder (s.called .enc) s.marked :=
  (endCommand_ran (runs_putBits _) _).effects

/-- `INIT` that starts no call writes `STATUS` only; one that does starts it with a Preset that it accepts and then
appends the marker in ENC or skips it in DEC (R371). -/
theorem execInit_outcome {s t : State} (h : exec .init s = .next t) :
    (∃ e, t = { s with status := e }) ∨
      (s.preset.wf = true ∧ (t = s.marked ∨ t = { s.called .dec with roff := flagsMagicLen s.a3, status := .ok })) := by
  have h : execInit s = .next t := h
  by_cases ho : s.initOperands
  case neg =>
    rw [execInit_range ho] at h
    cases h
    exact .inl ⟨_, rfl⟩
  cases hw : s.preset.wf with
  | false =>
    rw [execInit_refused ho hw] at h
    cases h
    exact .inl ⟨_, rfl⟩
  | true =>
    refine .inr ⟨rfl, ?_⟩
    obtain h0 | h0 : s.a0 = 0 ∨ s.a0 = 1 := by have := ho.1; bv_omega
    · rw [execInit_enc ho hw h0] at h
      cases h
      exact .inl rfl
    · rw [execInit_dec ho hw h0] at h
      cases h
      exact .inr rfl

end Sys2Proof.Machine
end

section
/-!
The statements that hold of every instruction by the kinds of write it is made of: the step and the reset, what is
refused, who owns what, the sticky flags and the growth of OUT.
-/

namespace Sys2Proof.Machine

/-! ## The step and the reset -/

/-- Settles O1: the host's next write is what `step` looks at first. -/
theorem stepRunsTheHostsNextCommand : Obligations.StepRunsTheHostsNextCommand := by
  refine fun s => ⟨fun w rest hs => ?_, fun hs => ?_⟩
  · rw [step, hs]; rfl
  · rw [step, hs]

/-- Settles O7: each invariant by its fields, at the values of `State.reset`. -/
theorem resetMeetsTheInvariants : Obligations.ResetMeetsTheInvariants :=
  ⟨⟨rfl, rfl⟩, by constructor <;> decide, by constructor <;> decide,
    ⟨fun _ => ⟨rfl, rfl, rfl, rfl⟩, nofun, nofun, nofun⟩, rfl⟩

/-! ## Commands out of place -/

/-- A command with a legal mode is a command of that mode (R347). -/
theorem exec_of_legalMode {i : Instr} {m : Mode} (h : legalMode i = some m) :
    ∃ body, ∀ s, exec i s = modeCommand m body s := by
  cases i with
  | bsAppend | bsRdbit | bsRd8 | bsRdint | outPutb | pcSw | pcLit | pcCtrl | pcUpper | pcEnterd | pcTerm | pcRdh | pcRdv
  | stepEnc | stepDec | cntEnc | cntDec | udlEnc | udlDec | udlEsc | tkBackref | tkRepeat | tkHex | tkGuid | tkTmpl
  | tkFreq | tkBin | tkUni1 | smFind | decStep | decRun => cases h; exact ⟨_, fun _ => rfl⟩
  | _ => cases h

/-- A command of one mode is refused before `INIT` and in the other mode (R347). -/
theorem exec_refused {i : Instr} {m : Mode} {s : State} (hi : legalMode i = some m)
    (hs : ¬ (s.ready = true ∧ s.mode = m)) : exec i s = .next { s with status := .refused } := by
  obtain ⟨body, hb⟩ := exec_of_legalMode hi
  rw [hb, modeCommand_refused hs]

/-- A host command has a legal mode, but for `INIT`, `PC.CLASS` and the numbers that R90 does not list. -/
theorem legalMode_of_commandNumber {i : Instr} (h : commandNumber i ≠ none) :
    i = .init ∨ i = .pcClass ∨ (∃ n, i = .illegal n) ∨ ∃ m, legalMode i = some m := by
  cases i with
  | init => exact .inl rfl
  | pcClass => exact .inr (.inl rfl)
  | illegal n => exact .inr (.inr (.inl ⟨n, rfl⟩))
  | bsAppend | bsRdbit | bsRd8 | bsRdint | outPutb | pcSw | pcLit | pcCtrl | pcUpper | pcEnterd | pcTerm | pcRdh | pcRdv
  | stepEnc | stepDec | cntEnc | cntDec | udlEnc | udlDec | udlEsc | tkBackref | tkRepeat | tkHex | tkGuid | tkTmpl
  | tkFreq | tkBin | tkUni1 | smFind | decStep | decRun => exact .inr (.inr (.inr ⟨_, rfl⟩))
  | _ => exact absurd rfl h

/-- `PC.CLASS` is refused before `INIT` (R347). -/
theorem execPcClass_refused {s : State} (h : s.ready = false) :
    execPcClass s = .next { s with status := .refused } := by
  simp [execPcClass, anyModeCommand, endCommand, h]

/-- Settles O14: `READY`, then `MODE`, are tested before a command's own rule. -/
theorem commandsOutOfPlaceAreRefused : Obligations.CommandsOutOfPlaceAreRefused := by
  intro i s hn hi
  obtain h | rfl | ⟨n, rfl⟩ | ⟨m, hm⟩ := legalMode_of_commandNumber hn
  · exact absurd h hi
  · exact ⟨execPcClass_refused, nofun⟩
  · exact ⟨fun _ => rfl, nofun⟩
  · refine ⟨fun hr => exec_refused hm (by simp [hr]), fun m' hm' hmode => exec_refused hm ?_⟩
    obtain rfl : m = m' := Option.some.inj (hm.symm.trans hm')
    exact fun h => hmode h.2

/-! ## The host's state -/

/-- `INIT` does not write what the host owns (R20, R38). -/
theorem execInit_hostPart {s t : State} (h : exec .init s = .next t) : t.hostPart = s.hostPart := by
  obtain ⟨e, rfl⟩ | ⟨-, rfl | rfl⟩ := execInit_outcome h
  · rfl
  · exact s.marked_effects.hostPart_eq
  · rfl

/-- Settles O20: no write of the block is to the host's state, and none but those of `INIT` to the call's parameters. -/
theorem hostOwnedStateIsUnchanged : Obligations.HostOwnedStateIsUnchanged := by
  intro i s t h
  have hhost : t.hostPart = s.hostPart := by
    by_cases hi : i = .init
    · subst hi
      exact execInit_hostPart h
    · obtain ⟨r, hr⟩ := exec_ran_from_roff hi h
      exact hr.effects.hostPart_eq
  refine ⟨by simpa [State.hostPart] using hhost, fun hi => ?_⟩
  obtain ⟨r, hr⟩ := exec_ran_from_roff hi h
  simpa [State.callPart] using hr.effects.callPart_eq

/-! ## The sticky flags -/

/-- Settles O17: after an overflow no write of OUT is made, and the first one is the only write of `NEED`. -/
theorem overflowIsStickyAndSetsNeed : Obligations.OverflowIsStickyAndSetsNeed := by
  intro i s t hi h
  obtain ⟨r, hr⟩ := exec_ran_from_roff hi h
  refine ⟨fun ho => ?_, fun ho => ?_⟩
  · have hout := hr.effects.outputPart_sticky ho
    simp only [State.outputPart, Prod.mk.injEq] at hout
    exact ⟨hout.1.trans ho, hout.2⟩
  · obtain ⟨hkept, hneed⟩ := hr.effects.need_of_ovf ho
    refine ⟨hkept, fun ht => ⟨?_, hneed ht⟩⟩
    by_contra hst
    exact absurd ((hr.kept hst).symm.trans ht) (by simp [ho])

/-- Settles O19: a turn and a run of a halted automaton by their first test; the flags by the kinds of write. -/
theorem haltAndEndOfInputAreSticky : Obligations.HaltAndEndOfInputAreSticky := by
  refine fun s => ⟨fun hh hs => ⟨?_, ?_⟩, fun i t hi h => ?_⟩
  · refine (modeCommand_run hs.1 hs.2).trans ?_
    rw [endCommand_error (by rw [automaton, if_neg hh])]
  · refine (modeCommand_run hs.1 hs.2).trans ?_
    rw [endCommand_error (by rw [runToHalt, runLoop_halted _ hh])]
  · obtain ⟨r, hr⟩ := exec_ran_from_roff hi h
    exact ⟨hr.effects.halt_sticky, hr.effects.reos_sticky⟩

/-- Every write of the block keeps what the sticky flags say (R30, R31, R35, R343). -/
theorem Effect.keeps_flagsConsistent {p : Actor} {s t : State} (h : Effect p s t) (hs : s.FlagsConsistent) :
    t.FlagsConsistent := by
  cases h with
  | reject n _ hn => exact ⟨hs.reos, fun _ => hn, fun _ => rfl⟩
  | read _ =>
    refine { hs with reos := fun hr => ?_ }
    simp only [State.afterRead_reos, Bool.or_eq_true, decide_eq_true_eq] at hr
    rw [State.afterRead_ilen, State.afterRead_roff]
    exact hr.elim (fun h => Nat.lt_add_right 1 (hs.reos h)) And.right
  | skip n _ => exact { hs with reos := fun hr => Nat.lt_add_right n (hs.reos hr) }
  | halt x _ _ ho => exact { hs with halt := ho }
  | _ => exact { hs with }

/-- Settles O10: a call starts with the flags clear, and every write of the block keeps what they say. -/
theorem stepKeepsFlagsConsistent : Obligations.StepKeepsFlagsConsistent := by
  intro s t
  refine step_keeps (fun s w rest hs => { hs with }) ?_ fun _ _ _ => Effect.keeps_flagsConsistent
  rintro s _ ⟨⟩ -
  exact ⟨nofun, nofun, nofun⟩

/-! ## The growth of OUT -/

/-- `INIT` writes no byte of OUT at or above the new `OCAP` (R71). -/
theorem execInit_read_above_ocap {s t : State} (h : exec .init s = .next t) {a : Nat} (ha : t.ocap ≤ a) :
    t.out.read a = s.out.read a := by
  obtain ⟨e, rfl⟩ | ⟨-, rfl | rfl⟩ := execInit_outcome h
  · rfl
  · exact s.marked_effects.read_above_ocap (s.marked_effects.ocap_eq ▸ ha)
  · rfl

/-- Settles O18: an append fits and a byte has room, each is written at its cursor, and the cursors only grow. -/
theorem outputGrowsWithinItsCapacity : Obligations.OutputGrowsWithinItsCapacity := by
  intro i s t h
  refine ⟨fun a ha => ?_, fun hi hs => ?_⟩
  · by_cases hi : i = .init
    · subst hi
      exact execInit_read_above_ocap h ha
    · obtain ⟨r, hr⟩ := exec_ran_from_roff hi h
      exact hr.effects.read_above_ocap (hr.effects.ocap_eq ▸ ha)
  · obtain ⟨r, hr⟩ := exec_ran_from_roff hi h
    obtain ⟨hw, ho⟩ := hr.effects.cursors_grow
    refine ⟨hw, ho, fun hm k hk => ?_, fun hm a ha => ?_⟩
    · obtain ⟨r, he⟩ := exec_effects_enc hi hm h
      exact he.bit_below_woff ⟨hs.inp, hs.out⟩ hk
    · obtain ⟨r, he⟩ := exec_effects_dec hi hm h
      exact he.read_outside_bytes nofun ha

end Sys2Proof.Machine
end

section
/-!
A guarantee: what every run of a piece of pseudocode ensures of the state it starts in, the status it raises and the
state it ends in. One passage over the pseudocode of the encoder, and one over that of the automaton, serve every
guarantee that allows the kinds of write they make.
-/

namespace Sys2Proof.Machine

/-! ## Guarantees -/

/-- A relation of the state before, the status and the state after, which holds of nothing done, of one thing done after
another, and whatever `STATUS` is. -/
structure Guarantee where
  rel : State → Status → State → Prop
  refl : ∀ s e, rel s e s
  trans : ∀ {s t u e}, rel s .ok t → rel t e u → rel s e u
  finish : ∀ {s t e} x, rel s e t → rel s e { t with status := x }

/-- A value of the state is unchanged. -/
def Guarantee.keeping {β : Type} (f : State → β)
    (hf : ∀ s x, f { s with status := x } = f s := by intros; rfl) : Guarantee where
  rel s _ t := f t = f s
  refl _ _ := rfl
  trans h h' := h'.trans h
  finish x h := (hf _ x).trans h

/-- A property of the state is kept. -/
def Guarantee.invariant (I : State → Prop) (hI : ∀ s x, I s → I { s with status := x }) : Guarantee where
  rel s _ t := I s → I t
  refl _ _ := id
  trans h h' := h' ∘ h
  finish x h hs := hI _ x (h hs)

/-- What a result of pseudocode satisfies. -/
def Ends {α : Type} (P : Status → State → Prop) : EStateM.Result Status State α → Prop
  | .ok _ t => P .ok t
  | .error e t => P e t

/-- Every run of a piece of pseudocode gives a guarantee. -/
def Keeps (G : Guarantee) {α : Type} (c : Cmd α) : Prop := ∀ s, Ends (G.rel s) (c s)

section
variable {G : Guarantee} {α β : Type}

/-- From here on a guarantee given from a state gives one from an earlier state. -/
theorem Ends.after {s t : State} {r : EStateM.Result Status State α} (h : G.rel s .ok t) (hr : Ends (G.rel t) r) :
    Ends (G.rel s) r := by
  cases r with
  | ok a u => exact G.trans h hr
  | error e u => exact G.trans h hr

/-- A piece of pseudocode and what follows it, from one state. -/
theorem Ends.bind {x : Cmd α} {f : α → Cmd β} {s : State} (hx : Ends (G.rel s) (x s))
    (hf : ∀ a t, x s = .ok a t → Ends (G.rel t) (f a t)) : Ends (G.rel s) ((x >>= f) s) := by
  rw [Cmd.bind_run]
  cases hr : x s with
  | ok a t => rw [hr] at hx; exact .after hx (hf a t hr)
  | error e t => rw [hr] at hx; exact hx

theorem Keeps.bind {x : Cmd α} {f : α → Cmd β} (hx : Keeps G x) (hf : ∀ a, Keeps G (f a)) : Keeps G (x >>= f) :=
  fun s => .bind (hx s) fun a t _ => hf a t

theorem Keeps.pure (a : α) : Keeps G (pure a) := fun s => G.refl s .ok

theorem Keeps.readState : Keeps G readState := fun s => G.refl s .ok

theorem Keeps.look (f : State → α) : Keeps G (look f) := fun s => G.refl s .ok

theorem Keeps.raise (e : Status) : Keeps G (raise e : Cmd α) := fun s => G.refl s e

theorem Keeps.ite {c : Prop} [Decidable c] {x y : Cmd α} (hx : Keeps G x) (hy : Keeps G y) :
    Keeps G (if c then x else y) := by
  split <;> assumption

theorem Keeps.require (c : Prop) [Decidable c] (e : Status) : Keeps G (require c e) := .ite (.pure ()) (.raise e)

/-- What follows a test runs only where the condition holds. -/
theorem Ends.require_bind {c : Prop} [Decidable c] {e : Status} {f : Unit → Cmd β} {s : State}
    (hf : c → Ends (G.rel s) (f () s)) : Ends (G.rel s) ((Machine.require c e >>= f) s) := by
  rw [Cmd.bind_run, require_run]
  by_cases hc : c
  · rw [if_pos hc]; exact hf hc
  · rw [if_neg hc]; exact G.refl s e

/-- A command ends with its pseudocode's guarantee. -/
theorem endCommand_keeps {body : Cmd Unit} (h : Keeps G body) (s : State) :
    G.rel s (endCommand body s).status (endCommand body s) := by
  have h := h s
  unfold endCommand
  cases hs : body s with
  | ok _ t => rw [hs] at h; exact G.finish .ok h
  | error e t => rw [hs] at h; exact G.finish e h

/-- A command of one mode gives the guarantee of its pseudocode; in the other mode it only writes `STATUS` (R347). -/
theorem modeCommand_keeps {m : Mode} {body : Cmd Unit} {s t : State} (h : modeCommand m body s = .next t)
    (hb : Keeps G body) : G.rel s t.status t := by
  by_cases hs : s.ready = true ∧ s.mode = m
  · rw [modeCommand_run hs.1 hs.2] at h
    cases h
    exact endCommand_keeps hb s
  · rw [modeCommand_refused hs] at h
    cases h
    exact G.finish .refused (G.refl s .refused)

end

/-- The registers that hold the coder's modes, and `R0`: what a command may write beside its cursor and its memory. -/
inductive Part where
  | set | upper | codepoint | result

/-- A guarantee allows the writes of the modes and of `R0` that are among the given parts. DELTA is entered with `UPPER`
off and `UPPER` is not set in DELTA (R297, R298, R307). -/
structure Guarantee.Modes (G : Guarantee) (W : Part → Prop) : Prop where
  set : W .set → ∀ s c, c ≠ .delta → G.rel s .ok { s with curSet := c }
  enterDelta : W .set → ∀ s, s.upper = false → G.rel s .ok { s with curSet := .delta }
  upperOff : W .upper → ∀ s, G.rel s .ok { s with upper := false }
  upperOn : W .upper → ∀ s, s.curSet ≠ .delta → G.rel s .ok { s with upper := true }
  codepoint : W .codepoint → ∀ s cp, G.rel s .ok { s with prevCp := cp }
  result : W .result → ∀ s a, G.rel s .ok { s with r0 := a }

section
variable {G : Guarantee} {W : Part → Prop} (hG : G.Modes W)
include hG

theorem Guarantee.Modes.keeps_enterSet {h : SetId} (hs : h = .alpha ∨ h = .num → W .set) : Keeps G (enterSet h) := by
  cases h with
  | alpha => exact fun s => hG.set (hs (.inl rfl)) s .alpha nofun
  | num => exact fun s => hG.set (hs (.inr rfl)) s .num nofun
  | sym | dict | delta => exact .pure ()

theorem Guarantee.Modes.keeps_upperOff (hu : W .upper) : Keeps G (setUpper false) := fun s => hG.upperOff hu s

theorem Guarantee.Modes.keeps_setPrevCp (hc : W .codepoint) (cp : Nat) : Keeps G (setPrevCp cp) :=
  fun s => hG.codepoint hc s cp

theorem Guarantee.Modes.keeps_setR0 (hr : W .result) (v : Nat) : Keeps G (setR0 v) := fun s => hG.result hr s _

end

/-! ## The commands of ENC mode -/

/-- After the switch to ALPHA, sent or not, the resting set is ALPHA (R154). -/
theorem emitSWUnless_alpha_ok {s t : State} (h : emitSWUnless .alpha .alpha s = .ok () t) : t.curSet = .alpha := by
  rw [emitSWUnless, Cmd.bind_run, readState_run] at h
  dsimp only at h
  split at h
  · cases h; assumption
  · rw [emitSW, Cmd.bind_run, readState_run] at h
    dsimp only at h
    rw [Cmd.bind_run] at h
    split at h
    · cases h; rfl
    · cases h

/-- A guarantee allows the writes of the encoder: appends, rejections, and the given parts. -/
structure Guarantee.Encoder (G : Guarantee) (W : Part → Prop) : Prop extends G.Modes W where
  append : ∀ s e out woff ovf need, G.rel s e { s with out := out, woff := woff, ovf := ovf, need := need }

section
variable {G : Guarantee} {W : Part → Prop} (hG : G.Encoder W)
include hG

theorem Guarantee.Encoder.keeps_putBits (bits : BitStr) : Keeps G (putBits bits) := by
  intro s
  rw [putBits_run]
  split
  · exact G.refl s .overflow
  · split
    · exact hG.append s .overflow s.out s.woff true _
    · exact hG.append s .ok _ _ s.ovf s.need

theorem Guarantee.Encoder.keeps_emitSW {h : SetId} (hs : h = .alpha ∨ h = .num → W .set) : Keeps G (emitSW h) :=
  Keeps.readState.bind fun _ => (hG.keeps_putBits _).bind fun _ => hG.keeps_enterSet hs

theorem Guarantee.Encoder.keeps_emitSWUnless (hs : W .set) (cur : Resting) (h : SetId) : Keeps G (emitSWUnless cur h) :=
  Keeps.readState.bind fun _ => .ite (.pure ()) (hG.keeps_emitSW fun _ => hs)

theorem Guarantee.Encoder.keeps_emitV (v : Fin 28) : Keeps G (emitV v) :=
  (Keeps.look _).bind fun _ => hG.keeps_putBits _

theorem Guarantee.Encoder.keeps_emitNUM (hs : W .set) (v : Fin 28) : Keeps G (emitNUM v) :=
  (hG.keeps_emitSWUnless hs _ _).bind fun _ => hG.keeps_emitV v

theorem Guarantee.Encoder.keeps_emitESC (hs : W .set) (k : Nat) : Keeps G (emitESC k) :=
  (hG.keeps_emitSW fun _ => hs).bind fun _ => (hG.keeps_emitV _).bind fun _ => hG.keeps_putBits _

theorem Guarantee.Encoder.keeps_padOut : Keeps G padOut :=
  Keeps.readState.bind fun _ => .ite (.pure ()) (hG.keeps_putBits _)

theorem Guarantee.Encoder.keeps_emitDelta (hc : W .codepoint) (cp : Nat) : Keeps G (emitDelta cp) :=
  (Keeps.look _).bind fun _ => (hG.keeps_putBits _).bind fun _ => hG.keeps_setPrevCp hc cp

theorem Guarantee.Encoder.keeps_litUpper (hs : W .set) (c : Byte) : Keeps G (litUpper c) :=
  (hG.keeps_emitSWUnless hs _ _).bind fun _ => Keeps.readState.bind fun _ =>
    .ite (hG.keeps_emitV _) ((hG.keeps_putBits _).bind fun _ => hG.keeps_emitV _)

theorem Guarantee.Encoder.keeps_litSpace (hs : W .set) : Keeps G litSpace :=
  Keeps.readState.bind fun _ => .ite (hG.keeps_emitV _) <| .ite (hG.keeps_putBits _) <|
    (hG.keeps_emitSWUnless hs _ _).bind fun _ => hG.keeps_emitV _

theorem Guarantee.Encoder.keeps_litOther (hs : W .set) (hu : W .upper) (c : Byte) : Keeps G (litOther c) := by
  refine (Keeps.look _).bind fun p => ?_
  cases (p.classOf c).1 with
  | alpha =>
    exact (hG.keeps_emitSWUnless hs _ _).bind fun _ => Keeps.readState.bind fun _ => .ite
      ((hG.keeps_putBits _).bind fun _ => (hG.keeps_upperOff hu).bind fun _ => hG.keeps_emitV _) (hG.keeps_emitV _)
  | sym => exact (hG.keeps_emitSW fun _ => hs).bind fun _ => hG.keeps_emitV _
  | num => exact (hG.keeps_emitSWUnless hs _ _).bind fun _ => hG.keeps_emitV _

theorem Guarantee.Encoder.keeps_literal (hs : W .set) (hu : W .upper) (c : Byte) : Keeps G (literal c) :=
  (Keeps.look _).bind fun _ => .ite (hG.keeps_litUpper hs c) <| .ite (hG.keeps_litSpace hs) <|
    .ite (hG.keeps_putBits _) <| .ite (hG.keeps_putBits _) (hG.keeps_litOther hs hu c)

theorem Guarantee.Encoder.keeps_upperOnCommand (hs : W .set) (hu : W .upper) : Keeps G upperOnCommand := by
  refine (Keeps.look _).bind fun _ => (Keeps.require _ _).bind fun _ s =>
    .bind (hG.keeps_emitSWUnless hs _ _ s) fun _ t ht => .bind (G.refl t .ok) fun p u hp => ?_
  cases hp
  refine .bind (hG.keeps_putBits _ t) fun _ u hput => hG.upperOn hu u ?_
  rw [(putBits_ok hput).2, State.appended_curSet, emitSWUnless_alpha_ok ht]
  exact nofun

theorem Guarantee.Encoder.keeps_upperOffCommand (hs : W .set) (hu : W .upper) : Keeps G upperOffCommand :=
  (Keeps.look _).bind fun _ => (Keeps.require _ _).bind fun _ => (hG.keeps_emitSWUnless hs _ _).bind fun _ =>
    (Keeps.look _).bind fun _ => (hG.keeps_putBits _).bind fun _ => hG.keeps_upperOff hu

/-- The last append of `PC.ENTERD` and the entry into DELTA, with `UPPER` off (R160). -/
theorem Guarantee.Encoder.ends_enterDelta (hs : W .set) {s : State} (hu : s.upper = false) (bits : BitStr) :
    Ends (G.rel s) ((do putBits bits; update (fun t => { t with curSet := .delta }) : Cmd Unit) s) :=
  .bind (hG.keeps_putBits bits s) fun _ t ht => hG.enterDelta hs t (by rw [(putBits_ok ht).2]; exact hu)

theorem execPcEnterd_keeps (hs : W .set) (hu : W .upper) {s t : State} (h : execPcEnterd s = .next t) :
    G.rel s t.status t := by
  refine modeCommand_keeps h <| (Keeps.look _).bind fun _ => (Keeps.require _ _).bind fun _ =>
    (hG.keeps_emitSWUnless hs _ _).bind fun _ u => .bind (G.refl u .ok) fun v w hv => ?_
  cases hv
  by_cases hup : u.upper = true
  · rw [if_pos hup]
    refine .bind (hG.keeps_putBits _ u) fun _ v _ => .bind (hG.keeps_upperOff hu v) fun _ w hw => ?_
    cases hw
    exact hG.ends_enterDelta hs rfl _
  · rw [if_neg hup]
    exact hG.ends_enterDelta hs (by simpa using hup) _

theorem execTkBackref_keeps {s t : State} (h : execTkBackref s = .next t) : G.rel s t.status t := by
  refine modeCommand_keeps h <| (Keeps.look _).bind fun _ => (Keeps.look _).bind fun _ => (Keeps.look _).bind fun _ =>
    (Keeps.require _ _).bind fun _ => (Keeps.look _).bind fun x? => ?_
  cases x? with
  | none => exact .raise _
  | some x =>
    exact (hG.keeps_emitSW (h := .dict) nofun).bind fun _ => (hG.keeps_putBits _).bind fun _ =>
      (hG.keeps_putBits _).bind fun _ => (Keeps.look _).bind fun _ => .ite (hG.keeps_putBits _) (.pure ())

theorem execTkHex_keeps (hs : W .set) {s t : State} (h : execTkHex s = .next t) : G.rel s t.status t := by
  refine modeCommand_keeps h <| (Keeps.look _).bind fun pos => (Keeps.look _).bind fun n =>
    (Keeps.look _).bind fun up => Keeps.readState.bind fun u => ?_
  cases caseOfNumber up with
  | none => exact .raise _
  | some c =>
    refine (Keeps.require _ _).bind fun _ => ?_
    cases hexValues (runOf u pos n) c with
    | none => exact .raise _
    | some xs => exact (hG.keeps_emitESC hs _).bind fun _ => (hG.keeps_putBits _).bind fun _ => hG.keeps_putBits _

theorem execTkGuid_keeps (hs : W .set) {s t : State} (h : execTkGuid s = .next t) : G.rel s t.status t := by
  refine modeCommand_keeps h <| (Keeps.look _).bind fun pos => (Keeps.look _).bind fun up =>
    Keeps.readState.bind fun u => ?_
  cases caseOfNumber up with
  | none => exact .raise _
  | some c =>
    refine (Keeps.require _ _).bind fun _ => ?_
    cases guidValues c 0 (runOf u pos 36) with
    | none => exact .raise _
    | some xs => exact (hG.keeps_emitESC hs _).bind fun _ => hG.keeps_putBits _

theorem execTkTmpl_keeps (hs : W .set) {s t : State} (h : execTkTmpl s = .next t) : G.rel s t.status t := by
  refine modeCommand_keeps h <| (Keeps.look _).bind fun idx => (Keeps.look _).bind fun _ => (Keeps.look _).bind fun _ =>
    Keeps.readState.bind fun u => ?_
  cases templateOf u.preset idx with
  | none => exact .raise _
  | some tmpl =>
    exact (Keeps.require _ _).bind fun _ => (Keeps.require _ _).bind fun _ => (hG.keeps_emitESC hs _).bind fun _ =>
      (hG.keeps_putBits _).bind fun _ => (hG.keeps_putBits _).bind fun _ => hG.keeps_putBits _

theorem execTkFreq_keeps (hs : W .set) {s t : State} (h : execTkFreq s = .next t) : G.rel s t.status t := by
  refine modeCommand_keeps h <| (Keeps.look _).bind fun i => (Keeps.look _).bind fun p =>
    (Keeps.require _ _).bind fun _ => ?_
  obtain ⟨set, v⟩ := p.pairOf (freqSymbol i)
  cases set with
  | sym => exact (hG.keeps_emitSW fun _ => hs).bind fun _ => hG.keeps_emitV v
  | alpha | num => exact hG.keeps_emitNUM hs v

end

/-- The registers that an appending command may write beside `OUT`, `WOFF`, `OVF`, `NEED` and `STATUS` (R20 to R36). -/
def partsOf : Instr → List Part
  | .bsAppend => [.result]
  | .pcTerm => [.set, .result]
  | .pcLit | .pcUpper | .pcEnterd => [.set, .upper]
  | .pcSw | .udlEsc | .tkRepeat | .tkHex | .tkGuid | .tkTmpl | .tkFreq | .tkBin => [.set]
  | .udlEnc | .tkUni1 => [.codepoint]
  | _ => []

/-- An appending command gives every guarantee that allows the writes of its parts. -/
theorem appending_keeps {i : Instr} {G : Guarantee} (hi : i ∈ appendingCommands) (hG : G.Encoder (· ∈ partsOf i))
    {s t : State} (h : exec i s = .next t) : G.rel s t.status t := by
  cases i with
  | bsAppend =>
    exact modeCommand_keeps h <| (Keeps.look _).bind fun _ => (Keeps.look _).bind fun _ => (Keeps.require _ _).bind
      fun _ => (hG.keeps_putBits _).bind fun _ => (Keeps.look _).bind fun _ => hG.keeps_setR0 (by simp [partsOf]) _
  | pcSw =>
    exact modeCommand_keeps h <| (Keeps.look _).bind fun _ => (Keeps.look _).bind fun _ => (Keeps.require _ _).bind
      fun _ => hG.keeps_emitSW fun _ => by simp [partsOf]
  | pcLit =>
    exact modeCommand_keeps h <| (Keeps.look _).bind fun _ => (Keeps.require _ _).bind fun _ =>
      hG.keeps_literal (by simp [partsOf]) (by simp [partsOf]) _
  | pcCtrl =>
    exact modeCommand_keeps h <| (Keeps.look _).bind fun _ => (Keeps.require _ _).bind fun _ => Keeps.readState.bind
      fun _ => .ite (hG.keeps_putBits _) ((hG.keeps_emitSW (h := .sym) nofun).bind fun _ => hG.keeps_emitV _)
  | pcUpper =>
    exact modeCommand_keeps h <| (Keeps.look _).bind fun _ =>
      .ite (hG.keeps_upperOnCommand (by simp [partsOf]) (by simp [partsOf])) <|
        .ite (hG.keeps_upperOffCommand (by simp [partsOf]) (by simp [partsOf])) (.raise _)
  | pcEnterd => exact execPcEnterd_keeps hG (by simp [partsOf]) (by simp [partsOf]) h
  | pcTerm =>
    exact modeCommand_keeps h <| (Keeps.look _).bind fun _ => (hG.keeps_emitNUM (by simp [partsOf]) _).bind fun _ =>
      hG.keeps_padOut.bind fun _ => (Keeps.look _).bind fun _ => hG.keeps_setR0 (by simp [partsOf]) _
  | stepEnc =>
    exact modeCommand_keeps h <| (Keeps.look _).bind fun _ => (Keeps.look _).bind fun _ => (Keeps.require _ _).bind
      fun _ => hG.keeps_putBits _
  | cntEnc =>
    exact modeCommand_keeps h <| (Keeps.look _).bind fun _ => (Keeps.require _ _).bind fun _ => hG.keeps_putBits _
  | udlEnc =>
    exact modeCommand_keeps h <| (Keeps.look _).bind fun _ => (Keeps.look _).bind fun _ => (Keeps.require _ _).bind
      fun _ => (Keeps.require _ _).bind fun _ => hG.keeps_emitDelta (by simp [partsOf]) _
  | udlEsc =>
    exact modeCommand_keeps h <| (Keeps.look _).bind fun _ => (Keeps.look _).bind fun _ => (Keeps.look _).bind fun _ =>
      (Keeps.require _ _).bind fun _ => (Keeps.require _ _).bind fun _ =>
        .ite ((Keeps.require _ _).bind fun _ => hG.keeps_emitSW fun _ => by simp [partsOf]) (hG.keeps_putBits _)
  | tkBackref => exact execTkBackref_keeps hG h
  | tkRepeat =>
    exact modeCommand_keeps h <| (Keeps.look _).bind fun _ => (Keeps.require _ _).bind fun _ => (Keeps.look _).bind
      fun _ => (hG.keeps_emitNUM (by simp [partsOf]) _).bind fun _ => hG.keeps_putBits _
  | tkHex => exact execTkHex_keeps hG (by simp [partsOf]) h
  | tkGuid => exact execTkGuid_keeps hG (by simp [partsOf]) h
  | tkTmpl => exact execTkTmpl_keeps hG (by simp [partsOf]) h
  | tkFreq => exact execTkFreq_keeps hG (by simp [partsOf]) h
  | tkBin =>
    exact modeCommand_keeps h <| (Keeps.look _).bind fun _ => (Keeps.look _).bind fun _ => Keeps.readState.bind
      fun _ => (Keeps.require _ _).bind fun _ => (hG.keeps_emitESC (by simp [partsOf]) _).bind fun _ =>
        (hG.keeps_putBits _).bind fun _ => hG.keeps_putBits _
  | tkUni1 =>
    exact modeCommand_keeps h <| (Keeps.look _).bind fun _ => Keeps.readState.bind fun _ => (Keeps.require _ _).bind
      fun _ => (Keeps.require _ _).bind fun _ => (hG.keeps_putBits _).bind fun _ =>
        hG.keeps_emitDelta (by simp [partsOf]) _
  | _ => simp [appendingCommands] at hi

end Sys2Proof.Machine
end

section
/-!
The readers and the automaton: what a reader does to the state, and the guarantees of every piece of pseudocode of the
automaton. A reader that the automaton uses is followed by `eos` before anything else is done (R293).
-/

namespace Sys2Proof.Machine

/-! ## The readers -/

/-- No bit read (R124). -/
theorem State.afterRead_zero (s : State) : s.afterRead 0 = s := by
  simp [State.afterRead]

/-- Bits read one after another are read as one string (R124). -/
theorem State.afterRead_afterRead (s : State) (m n : Nat) : (s.afterRead m).afterRead n = s.afterRead (m + n) := by
  have hreos : (s.reos || decide (0 < m ∧ 8 * s.ilen < s.roff + m) || decide (0 < n ∧ 8 * s.ilen < s.roff + m + n)) =
      (s.reos || decide (0 < m + n ∧ 8 * s.ilen < s.roff + (m + n))) := by
    rw [Bool.or_assoc, ← Bool.decide_or]
    congr 2
    exact propext (by omega)
  rw [State.afterRead, State.afterRead_reos, State.afterRead_ilen, State.afterRead_roff, hreos, Nat.add_assoc]
  rfl

/-- A reader: whatever it answers or raises, it has only read bits. -/
def Reads {α : Type} (c : Cmd α) : Prop := ∀ s, ∃ n, stateAfter (c s) = s.afterRead n

/-- A reader that raises nothing. -/
def Answers {α : Type} (c : Cmd α) : Prop := ∀ s, ∃ a n, c s = .ok a (s.afterRead n)

section
variable {α β : Type}

theorem Answers.reads {c : Cmd α} (h : Answers c) : Reads c := by
  intro s
  obtain ⟨a, n, hc⟩ := h s
  exact ⟨n, by rw [hc]; rfl⟩

theorem Answers.pure (a : α) : Answers (pure a : Cmd α) := fun s => ⟨a, 0, by rw [s.afterRead_zero]; rfl⟩

theorem Answers.bind {x : Cmd α} {f : α → Cmd β} (hx : Answers x) (hf : ∀ a, Answers (f a)) : Answers (x >>= f) := by
  intro s
  obtain ⟨a, m, hm⟩ := hx s
  obtain ⟨b, n, hn⟩ := hf a (s.afterRead m)
  exact ⟨b, m + n, by rw [Cmd.bind_run, hm, ← State.afterRead_afterRead]; exact hn⟩

theorem Answers.ite {c : Prop} [Decidable c] {x y : Cmd α} (hx : Answers x) (hy : Answers y) :
    Answers (if c then x else y) := by
  split <;> assumption

end

theorem answers_getBit : Answers getBit := fun s => ⟨_, 1, getBit_run s⟩

theorem answers_getBitsFrom (acc n : Nat) : Answers (getBitsFrom acc n) := by
  induction n generalizing acc with
  | zero => exact .pure acc
  | succ n ih => exact answers_getBit.bind fun _ => ih _

theorem answers_getBits (n : Nat) : Answers (getBits n) := answers_getBitsFrom 0 n

theorem answers_readStepFrom (i n : Nat) : Answers (readStepFrom i n) := by
  induction n generalizing i with
  | zero => exact .pure i
  | succ n ih => exact answers_getBit.bind fun _ => .ite (ih _) (.pure i)

theorem answers_readStep (c : Nat) : Answers (readStep c) := answers_readStepFrom 0 c

theorem answers_readCnt : Answers readCnt :=
  (answers_readStep 4).bind fun _ => (answers_getBits _).bind fun _ => .pure _

theorem answers_readDeltaHead : Answers readDeltaHead :=
  (answers_readStep 5).bind fun _ => .ite
    ((answers_readStep 4).bind fun _ => .pure _)
    (answers_getBit.bind fun _ => (answers_getBits _).bind fun _ => .pure _)

theorem reads_readCode {α : Type} (codes : List (α × BitStr)) (acc : BitStr) (n : Nat) :
    Reads (readCode codes acc n) := by
  intro s
  induction n generalizing acc s with
  | zero => exact ⟨0, by rw [s.afterRead_zero]; rfl⟩
  | succ n ih =>
    rw [readCode, Cmd.bind_run, getBit_run]
    dsimp only
    cases findCode codes (acc ++ [paddedBit s s.roff]) with
    | some x => exact ⟨1, rfl⟩
    | none =>
      obtain ⟨m, hm⟩ := ih (acc ++ [paddedBit s s.roff]) (s.afterRead 1)
      exact ⟨1 + m, hm.trans (s.afterRead_afterRead 1 m)⟩

theorem reads_readH : Reads readH := fun s => reads_readCode (horizontalCodes s.preset) [] 8 s

theorem reads_readV : Reads readV := fun s => reads_readCode (verticalCodes s.preset) [] 8 s

/-- A reader gives every guarantee that allows bits read. -/
theorem Reads.keeps {α : Type} {c : Cmd α} {G : Guarantee} (hc : Reads c) (hG : ∀ s n e, G.rel s e (s.afterRead n)) :
    Keeps G c := by
  intro s
  obtain ⟨n, hn⟩ := hc s
  cases hr : c s with
  | ok a t =>
    obtain rfl : t = s.afterRead n := by simpa [hr, stateAfter] using hn
    exact hG s n .ok
  | error e t =>
    obtain rfl : t = s.afterRead n := by simpa [hr, stateAfter] using hn
    exact hG s n e

/-! ## The automaton -/

/-- A guarantee allows the writes of the automaton's turn: bytes, rejections, the modes, and bits read, of which none
was padding unless END_INPUT is raised (R293). -/
structure Guarantee.Decoder (G : Guarantee) : Prop extends G.Modes (fun _ => True) where
  write : ∀ s e out opos ovf need, G.rel s e { s with out := out, opos := opos, ovf := ovf, need := need }
  read : ∀ s n e, ((s.afterRead n).reos = true → e = .endInput) → G.rel s e (s.afterRead n)

/-- Every run of a piece of pseudocode gives a guarantee from before bits were read for it that no `eos` has yet
tested. -/
def KeepsRead (G : Guarantee) {α : Type} (c : Cmd α) : Prop := ∀ s n, Ends (G.rel s) (c (s.afterRead n))

section
variable {G : Guarantee} {α β : Type}

theorem KeepsRead.keeps {c : Cmd α} (h : KeepsRead G c) : Keeps G c := by
  intro s
  have h0 := h s 0
  rwa [s.afterRead_zero] at h0

theorem KeepsRead.bind {x : Cmd α} {f : α → Cmd β} (hx : Answers x) (hf : ∀ a, KeepsRead G (f a)) :
    KeepsRead G (x >>= f) := by
  intro s n
  obtain ⟨a, m, hm⟩ := hx (s.afterRead n)
  rw [Cmd.bind_run, hm, State.afterRead_afterRead]
  exact hf a s (n + m)

theorem KeepsRead.ite {c : Prop} [Decidable c] {x y : Cmd α} (hx : KeepsRead G x) (hy : KeepsRead G y) :
    KeepsRead G (if c then x else y) := by
  split <;> assumption

theorem KeepsRead.look_bind {f : State → α} {k : α → Cmd β} (hk : ∀ a, KeepsRead G (k a)) :
    KeepsRead G (look f >>= k) :=
  fun s n => hk (f (s.afterRead n)) s n

/-- The test of `eos`: what follows it runs only where no bit was padding (R293). -/
theorem KeepsRead.eos_bind (hG : G.Decoder) {f : Unit → Cmd β} (hf : Keeps G (f ())) : KeepsRead G (eos >>= f) := by
  intro s n
  rw [Cmd.bind_run, eos_run]
  by_cases hr : (s.afterRead n).reos = true
  · rw [if_pos hr]
    exact hG.read s n .endInput fun _ => rfl
  · rw [if_neg hr]
    exact .after (hG.read s n .ok fun h => absurd h hr) (hf (s.afterRead n))

end

section
variable {G : Guarantee} (hG : G.Decoder)
include hG

/-- The read of a code and what follows it, from one state (R293). -/
theorem Guarantee.Decoder.ends_readElement {α β : Type} {read : Cmd α} {f : α → Cmd β} {s : State} (hr : Reads read)
    (hf : ∀ a n, Ends (G.rel (s.afterRead n)) (f a (s.afterRead n))) : Ends (G.rel s) ((readElement read >>= f) s) := by
  obtain ⟨n, hn⟩ := hr s
  rw [Cmd.bind_run, readElement_run]
  cases hc : read s with
  | ok a t =>
    obtain rfl : t = s.afterRead n := by simpa [hc, stateAfter] using hn
    dsimp only
    by_cases he : (s.afterRead n).reos = true
    · rw [if_pos he]; exact hG.read s n .endInput fun _ => rfl
    · rw [if_neg he]; exact .after (hG.read s n .ok fun h => absurd h he) (hf a n)
  | error e t =>
    obtain rfl : t = s.afterRead n := by simpa [hc, stateAfter] using hn
    dsimp only
    by_cases he : (s.afterRead n).reos = true
    · rw [if_pos he]; exact hG.read s n .endInput fun _ => rfl
    · rw [if_neg he]; exact hG.read s n e fun h => absurd h he

theorem Guarantee.Decoder.keeps_readElement_bind {α β : Type} {read : Cmd α} {f : α → Cmd β} (hr : Reads read)
    (hf : ∀ a, Keeps G (f a)) : Keeps G (readElement read >>= f) :=
  fun _ => hG.ends_readElement hr fun a _ => hf a _

theorem Guarantee.Decoder.keeps_putByte (b : Byte) : Keeps G (putByte b) := by
  intro s
  rw [putByte_run]
  split
  · exact G.refl s .overflow
  · split
    · exact hG.write s .overflow s.out s.opos true _
    · exact hG.write s .ok _ _ s.ovf s.need

theorem Guarantee.Decoder.keeps_putBytes (bs : ByteStr) : Keeps G (putBytes bs) := by
  induction bs with
  | nil => exact .pure ()
  | cons b bs ih => exact (hG.keeps_putByte b).bind fun _ => ih

theorem Guarantee.Decoder.keeps_copyBack (dist n : Nat) : Keeps G (copyBack dist n) := by
  induction n with
  | zero => exact .pure ()
  | succ n ih => exact (Keeps.look _).bind fun _ => (hG.keeps_putByte _).bind fun _ => ih

theorem Guarantee.Decoder.keeps_copyRef (len x line : Nat) : Keeps G (copyRef len x line) := by
  refine Keeps.readState.bind fun s => .ite ((Keeps.require _ _).bind fun _ => hG.keeps_copyBack _ _) ?_
  cases s.lh[line - 1]? with
  | none => exact .raise _
  | some l => exact (Keeps.require _ _).bind fun _ => hG.keeps_putBytes _

theorem Guarantee.Decoder.keeps_expandBackref : Keeps G expandBackref :=
  (KeepsRead.bind answers_readCnt fun _ => .bind answers_readCnt fun _ => .look_bind fun _ => .ite
    (.bind answers_readCnt fun _ => .eos_bind hG (hG.keeps_copyRef _ _ _))
    (.eos_bind hG (hG.keeps_copyRef _ _ _))).keeps

theorem Guarantee.Decoder.keeps_putRepeated (b : Byte) (n : Nat) : Keeps G (putRepeated b n) := by
  induction n with
  | zero => exact .pure ()
  | succ n ih => exact (hG.keeps_putByte _).bind fun _ => ih

theorem Guarantee.Decoder.keeps_repeatLast (r : Nat) : Keeps G (repeatLast r) :=
  Keeps.readState.bind fun _ => (Keeps.require _ _).bind fun _ => hG.keeps_putRepeated _ _

theorem Guarantee.Decoder.keeps_expandRepeat : Keeps G expandRepeat :=
  (KeepsRead.bind answers_readCnt fun _ => .eos_bind hG (hG.keeps_repeatLast _)).keeps

theorem Guarantee.Decoder.keeps_hexLoop (up : HexCase) (n : Nat) : Keeps G (hexLoop up n) := by
  induction n with
  | zero => exact .pure ()
  | succ n ih =>
    exact (KeepsRead.bind (answers_getBits 4) fun _ => .eos_bind hG ((hG.keeps_putByte _).bind fun _ => ih)).keeps

theorem Guarantee.Decoder.keeps_expandHex (up : HexCase) : Keeps G (expandHex up) :=
  (KeepsRead.bind answers_readCnt fun _ =>
    .eos_bind hG ((Keeps.require _ _).bind fun _ => hG.keeps_hexLoop _ _)).keeps

theorem Guarantee.Decoder.keeps_putGuidNibble (up : HexCase) (q x : Nat) : Keeps G (putGuidNibble up q x) :=
  (hG.keeps_putByte _).bind fun _ => .ite (hG.keeps_putByte _) (.pure ())

theorem Guarantee.Decoder.keeps_guidLoop (up : HexCase) (q n : Nat) : Keeps G (guidLoop up q n) := by
  induction n generalizing q with
  | zero => exact .pure ()
  | succ n ih =>
    exact (KeepsRead.bind (answers_getBits 4) fun _ =>
      .eos_bind hG ((hG.keeps_putGuidNibble _ _ _).bind fun _ => ih _)).keeps

theorem Guarantee.Decoder.keeps_templateLoop (ts : ByteStr) : Keeps G (templateLoop ts) := by
  induction ts with
  | nil => exact .pure ()
  | cons t ts ih =>
    rw [templateLoop]
    cases letterWidth t with
    | some w =>
      exact (KeepsRead.bind (answers_getBits w) fun _ =>
        .eos_bind hG ((hG.keeps_putByte _).bind fun _ => ih)).keeps
    | none => exact (hG.keeps_putByte _).bind fun _ => ih

theorem Guarantee.Decoder.keeps_expandTemplate : Keeps G expandTemplate := by
  refine (KeepsRead.bind (answers_readStep 4) fun idx => .bind answers_readCnt fun _ =>
    .eos_bind hG ?_).keeps
  refine (Keeps.look _).bind fun p => ?_
  cases templateOf p idx with
  | none => exact .raise _
  | some t => exact (Keeps.require _ _).bind fun _ => hG.keeps_templateLoop _

theorem Guarantee.Decoder.keeps_expandFreq (i : Fin 6) : Keeps G (expandFreq i) := by
  refine (Keeps.look _).bind fun p => ?_
  cases freqOf p i.val with
  | none => exact .raise _
  | some bs => exact hG.keeps_putBytes bs

theorem Guarantee.Decoder.keeps_binLoop (n : Nat) : Keeps G (binLoop n) := by
  induction n with
  | zero => exact .pure ()
  | succ n ih =>
    exact (KeepsRead.bind (answers_getBits 8) fun _ => .eos_bind hG ((hG.keeps_putByte _).bind fun _ => ih)).keeps

theorem Guarantee.Decoder.keeps_expandBin : Keeps G expandBin :=
  (KeepsRead.bind answers_readCnt fun _ => .eos_bind hG ((Keeps.require _ _).bind fun _ => hG.keeps_binLoop _)).keeps

theorem Guarantee.Decoder.keeps_expandEsc : Keeps G expandEsc := by
  refine (KeepsRead.bind (answers_readStep 5) fun k => .eos_bind hG ?_).keeps
  split
  · exact hG.keeps_expandTemplate
  · exact hG.keeps_expandHex _
  · exact hG.keeps_guidLoop _ _ _
  · exact hG.keeps_expandHex _
  · exact hG.keeps_guidLoop _ _ _
  · exact hG.keeps_expandBin

theorem Guarantee.Decoder.keeps_doSymbol (set : SymSet) (v : Fin 28) : Keeps G (doSymbol set v) := by
  refine Keeps.readState.bind fun s => ?_
  cases s.preset.symbol set v with
  | chr c => exact hG.keeps_putByte _
  | crlf => exact (hG.keeps_putByte _).bind fun _ => hG.keeps_putByte _
  | freq i => exact hG.keeps_expandFreq i
  | rpt => exact hG.keeps_expandRepeat
  | esc => exact hG.keeps_expandEsc
  | term | switch | unassigned => exact .raise _

theorem Guarantee.Decoder.keeps_shiftedLetter (v : Fin 28) : Keeps G (shiftedLetter v) := by
  refine (Keeps.look _).bind fun p => ?_
  cases p.symbol .alpha v with
  | chr c => exact hG.keeps_putByte _
  | _ => exact .raise _

/-- In ALPHA with `UPPER` off a switch sets `UPPER` and a shifted space enters DELTA: the codes read before leave both
(R297 to R299). -/
theorem Guarantee.Decoder.keeps_tailAlpha : Keeps G tailAlpha := by
  intro s
  rw [tailAlpha, Cmd.bind_run, readState_run]
  dsimp only
  by_cases hset : s.curSet ≠ .alpha
  · rw [if_pos hset]
    exact hG.set trivial s .alpha nofun
  rw [if_neg hset]
  by_cases hup : s.upper = true
  · rw [if_pos hup]
    exact hG.upperOff trivial s
  rw [if_neg hup]
  refine hG.ends_readElement reads_readV fun v n => ?_
  by_cases hv : v = switchIndex
  · rw [if_pos hv]
    refine hG.ends_readElement reads_readH fun h m => .require_bind fun _ => hG.upperOn trivial _ ?_
    rw [State.afterRead_curSet, State.afterRead_curSet, not_not.mp hset]
    exact nofun
  rw [if_neg hv]
  by_cases hw : v = spaceIndex
  · rw [if_pos hw]
    exact hG.enterDelta trivial _ (by simpa using hup)
  · rw [if_neg hw]
    exact hG.keeps_shiftedLetter v _

theorem Guarantee.Decoder.keeps_deltaMagnitude (d : Int) : Keeps G (deltaMagnitude d) :=
  (Keeps.look _).bind fun _ => (Keeps.require _ _).bind fun _ => (hG.keeps_setPrevCp trivial _).bind fun _ =>
    hG.keeps_putBytes _

theorem Guarantee.Decoder.keeps_deltaEffect {onSwitch : Cmd Unit} (hs : Keeps G onSwitch) (x : DeltaHead) :
    Keeps G (deltaEffect onSwitch x) := by
  cases x with
  | delta d => exact hG.keeps_deltaMagnitude d
  | escape e => exact .ite hs (hG.keeps_putByte _)

theorem Guarantee.Decoder.keeps_transientDelta : Keeps G transientDelta :=
  (KeepsRead.bind answers_readDeltaHead fun x => .eos_bind hG (hG.keeps_deltaEffect (.raise _) x)).keeps

theorem Guarantee.Decoder.keeps_doTail (h : SetId) : Keeps G (doTail h) := by
  cases h with
  | alpha => exact hG.keeps_tailAlpha
  | sym => exact hG.keeps_readElement_bind reads_readV fun v => hG.keeps_doSymbol _ v
  | num =>
    exact (hG.keeps_enterSet fun _ => trivial).bind fun _ =>
      hG.keeps_readElement_bind reads_readV fun v => hG.keeps_doSymbol _ v
  | dict => exact hG.keeps_expandBackref
  | delta => exact (Keeps.look _).bind fun _ => .ite (.pure ()) hG.keeps_transientDelta

theorem Guarantee.Decoder.keeps_switchInDelta : Keeps G switchInDelta :=
  hG.keeps_readElement_bind reads_readH fun h => hG.keeps_doTail h

theorem Guarantee.Decoder.keeps_restingDelta : Keeps G restingDelta :=
  (KeepsRead.bind answers_readDeltaHead fun x =>
    .eos_bind hG (hG.keeps_deltaEffect hG.keeps_switchInDelta x)).keeps

theorem Guarantee.Decoder.keeps_verticalToken (set : SymSet) : Keeps G (verticalToken set) :=
  hG.keeps_readElement_bind reads_readV fun v => .ite
    (hG.keeps_readElement_bind reads_readH fun h => hG.keeps_doTail h) (hG.keeps_doSymbol set v)

theorem Guarantee.Decoder.keeps_fetchAndRun : Keeps G fetchAndRun := by
  refine Keeps.readState.bind fun s => (Keeps.require _ _).bind fun _ => ?_
  cases restingSymbols s.curSet with
  | none => exact hG.keeps_restingDelta
  | some set => exact hG.keeps_verticalToken set

end

/-! ## Turns -/

/-- A guarantee does not look at the status, `R0` or `HALT`: what a turn of the automaton writes after its body (R291,
R292). -/
def Guarantee.Turns (G : Guarantee) : Prop :=
  ∀ {s t : State} {e : Status} (e' : Status) (a : Word) (x : Halt),
    G.rel s e t → G.rel s e' { t with r0 := a, halt := x }

section
variable {G : Guarantee} (hT : G.Turns)
include hT

theorem Guarantee.Turns.keeps_automaton {body : Cmd Unit} (hb : Keeps G body) : Keeps G (automaton body) := by
  intro s
  unfold automaton
  by_cases hr : s.halt = .run
  · rw [if_pos hr]
    have h := hb s
    cases hs : body s with
    | ok _ t => rw [hs] at h; exact hT .ok _ t.halt h
    | error e t => rw [hs] at h; exact hT e _ _ h
  · rw [if_neg hr]
    exact hT s.halt.status 0 s.halt (G.refl s .ok)

theorem Guarantee.Turns.runLoop_keeps (hG : G.Decoder) (n : Nat) (s : State) (e : Status) :
    G.rel s e (runLoop n s) := by
  induction n generalizing s with
  | zero => exact G.refl s e
  | succ n ih =>
    rw [runLoop]
    by_cases hr : s.halt = .run
    · rw [if_pos hr]
      have h := hT.keeps_automaton hG.keeps_fetchAndRun s
      cases hs : automaton fetchAndRun s with
      | ok _ t => rw [hs] at h; exact G.trans h (ih t)
      | error x t => rw [hs] at h; exact G.trans (hT .ok t.r0 t.halt h) (ih t)
    · rw [if_neg hr]
      exact G.refl s e

theorem Guarantee.Turns.keeps_runToHalt (hG : G.Decoder) : Keeps G runToHalt := fun s =>
  hT (e := .ok) _ _ _ (hT.runLoop_keeps hG (runBound s) s .ok)

end

end Sys2Proof.Machine
end

section
/-!
The frames of the commands of one mode: what the appending and the reading commands leave unchanged.
-/

namespace Sys2Proof.Machine

/-! ## Values of the state as guarantees -/

section
variable {β : Type} {f : State → β} {hf : ∀ s x, f { s with status := x } = f s} {W : Part → Prop}

/-- A value that does not look at the parts written is unchanged by them. -/
theorem Guarantee.keeping_modes (hset : W .set → ∀ s c, f { s with curSet := c } = f s)
    (hupper : W .upper → ∀ s b, f { s with upper := b } = f s)
    (hcp : W .codepoint → ∀ s cp, f { s with prevCp := cp } = f s)
    (hres : W .result → ∀ s a, f { s with r0 := a } = f s) : (Guarantee.keeping f hf).Modes W where
  set h s c _ := hset h s c
  enterDelta h s _ := hset h s .delta
  upperOff h s := hupper h s false
  upperOn h s _ := hupper h s true
  codepoint := hcp
  result := hres

end

/-- A value of the state that does not look at what the automaton writes; each field is seen by computation where the
value looks at none of its places. -/
structure AutomatonBlind {β : Type} (f : State → β) : Prop where
  modes : ∀ s set up cp x a, f { s with curSet := set, upper := up, prevCp := cp, halt := x, r0 := a } = f s := by
    intros; rfl
  write : ∀ s out opos ovf need, f { s with out := out, opos := opos, ovf := ovf, need := need } = f s := by
    intros; rfl
  read : ∀ s n, f (s.afterRead n) = f s := by intros; rfl

/-- Such a value is unchanged by the automaton's turns. -/
theorem AutomatonBlind.keeping {β : Type} {f : State → β} {hf : ∀ s x, f { s with status := x } = f s}
    (h : AutomatonBlind f) : (Guarantee.keeping f hf).Decoder ∧ (Guarantee.keeping f hf).Turns := by
  have hmodes : (Guarantee.keeping f hf).Modes fun _ => True :=
    Guarantee.keeping_modes (fun _ s c => h.modes s c s.upper s.prevCp s.halt s.r0)
      (fun _ s b => h.modes s s.curSet b s.prevCp s.halt s.r0)
      (fun _ s cp => h.modes s s.curSet s.upper cp s.halt s.r0)
      (fun _ s a => h.modes s s.curSet s.upper s.prevCp s.halt a)
  exact ⟨{ hmodes with write := fun s _ => h.write s, read := fun s n _ _ => h.read s n },
    fun {_ t _} _ a x ht => (h.modes t t.curSet t.upper t.prevCp x a).trans ht⟩

/-- The results but for `R0`. -/
def State.otherResults (s : State) : Word × Word × Word := (s.r1, s.r2, s.r3)

theorem otherResults_blind : AutomatonBlind State.otherResults := {}

/-! ## The appending commands -/

theorem legalMode_of_appending : ∀ i ∈ appendingCommands, legalMode i = some .enc := by decide

/-- Only `BS.APPEND` and `PC.TERM` answer a result. -/
theorem result_mem_partsOf {i : Instr} (h : .result ∈ partsOf i) : i = .bsAppend ∨ i = .pcTerm := by
  unfold partsOf at h
  split at h <;> simp_all

/-- Only the delta commands write `PREV_CP`. -/
theorem codepoint_mem_partsOf {i : Instr} (h : .codepoint ∈ partsOf i) : i = .udlEnc ∨ i = .tkUni1 := by
  unfold partsOf at h
  split at h <;> simp_all

/-- Only `PC.LIT`, `PC.UPPER` and `PC.ENTERD` write `UPPER`. -/
theorem upper_mem_partsOf {i : Instr} (h : .upper ∈ partsOf i) : i ∈ [Instr.pcLit, .pcUpper, .pcEnterd] := by
  unfold partsOf at h
  split at h <;> simp_all

/-- A switch to a set that does not rest, and no switch, leave `SET`. -/
theorem set_mem_partsOf {i : Instr} (h : .set ∈ partsOf i) :
    i ∉ [Instr.bsAppend, .pcCtrl, .stepEnc, .cntEnc, .udlEnc, .tkBackref, .tkUni1] := by
  unfold partsOf at h
  split at h <;> simp_all

/-- An appending command leaves a value that does not look at what it writes; a value that looks at none of the places
in question needs no proof of it. -/
theorem appending_value_eq {β : Type} {f : State → β} {i : Instr} {s t : State} (hi : i ∈ appendingCommands)
    (h : exec i s = .next t)
    (hset : .set ∈ partsOf i → ∀ s c, f { s with curSet := c } = f s := by intros; rfl)
    (hupper : .upper ∈ partsOf i → ∀ s b, f { s with upper := b } = f s := by intros; rfl)
    (hcp : .codepoint ∈ partsOf i → ∀ s cp, f { s with prevCp := cp } = f s := by intros; rfl)
    (hres : .result ∈ partsOf i → ∀ s a, f { s with r0 := a } = f s := by intros; rfl)
    (hstatus : ∀ s x, f { s with status := x } = f s := by intros; rfl)
    (happend : ∀ s out woff ovf need, f { s with out := out, woff := woff, ovf := ovf, need := need } = f s := by
      intros; rfl) :
    f t = f s :=
  appending_keeps (G := .keeping f hstatus) hi
    { Guarantee.keeping_modes hset hupper hcp hres with append := fun s _ => happend s } h

/-- An appending command writes no byte of OUT outside those of the bits it appends (R27, R121). -/
theorem appending_read_outside {i : Instr} (hi : i ∈ appendingCommands) {s t : State} (h : exec i s = .next t) {a : Nat}
    (ha : a < s.woff / 8 ∨ (t.woff + 7) / 8 ≤ a) : t.out.read a = s.out.read a := by
  have hl := legalMode_of_appending i hi
  by_cases hm : s.mode = .enc
  · obtain ⟨r, he⟩ := exec_effects_enc (by rintro rfl; cases hl) hm h
    exact he.read_outside_bits ha
  · rw [exec_refused hl fun hs => hm hs.2] at h
    cases h
    rfl

/-- Settles O21: the registers by the parts that each command writes, the bytes by its appends. -/
theorem appendingCommandsFrame : Obligations.AppendingCommandsFrame := by
  intro i s t hi h
  have hfixed := appending_value_eq (f := fun s => (s.roff, s.opos, s.reos, s.halt, s.r1, s.r2, s.r3)) hi h
  simp only [Prod.mk.injEq] at hfixed
  obtain ⟨hroff, hopos, hreos, hhalt, hr1, hr2, hr3⟩ := hfixed
  refine ⟨hroff, hopos, hreos, hhalt, hr1, hr2, hr3, fun hb ht => ?_, fun he hu => ?_, fun hu => ?_, fun hs => ?_,
    fun a ha => appending_read_outside hi h ha⟩
  · exact appending_value_eq (f := State.r0) hi h
      (hres := fun hp => absurd (result_mem_partsOf hp) (by simp [hb, ht]))
  · exact appending_value_eq (f := State.prevCp) hi h
      (hcp := fun hp => absurd (codepoint_mem_partsOf hp) (by simp [he, hu]))
  · exact appending_value_eq (f := State.upper) hi h (hupper := fun hp => absurd (upper_mem_partsOf hp) hu)
  · exact appending_value_eq (f := State.curSet) hi h (hset := fun hp => absurd hs (set_mem_partsOf hp))

/-! ## The reading commands -/

/-- The commands of DEC mode. -/
def readingCommands : List Instr :=
  [.bsRdbit, .bsRd8, .bsRdint, .outPutb, .pcRdh, .pcRdv, .stepDec, .cntDec, .udlDec, .decStep, .decRun]

theorem legalMode_of_reading : ∀ i ∈ readingCommands, legalMode i = some .dec := by decide

/-- A guarantee allows the writes of a reading command: `R0`; bits read; a byte for `OUT.PUTB`; a codepoint and two more
results for `UDL.DEC`; those of its turns for the automaton. -/
structure Guarantee.Reader (G : Guarantee) (i : Instr) : Prop where
  result : ∀ s a, G.rel s .ok { s with r0 := a }
  read : i ∉ [Instr.bsRd8, .outPutb] → ∀ s n e, G.rel s e (s.afterRead n)
  byte : i = .outPutb → ∀ s e out opos ovf need,
    G.rel s e { s with out := out, opos := opos, ovf := ovf, need := need }
  codepoint : i = .udlDec → ∀ s cp a b, G.rel s .ok { s with prevCp := cp, r1 := a, r2 := b }
  turn : i = .decStep ∨ i = .decRun → G.Decoder ∧ G.Turns

section
variable {G : Guarantee} {s t : State}

theorem execOutPutb_keeps (hG : G.Reader .outPutb) (h : execOutPutb s = .next t) : G.rel s t.status t := by
  refine modeCommand_keeps h <| (Keeps.look _).bind fun b => Keeps.bind (fun u => ?_) fun _ =>
    (Keeps.look _).bind fun _ u => hG.result u _
  rw [putByte_run]
  split
  · exact G.refl u .overflow
  · split
    · exact hG.byte rfl u .overflow u.out u.opos true _
    · exact hG.byte rfl u .ok _ _ u.ovf u.need

theorem applyUnitDelta_keeps (hG : G.Reader .udlDec) (d : Int) : Keeps G (applyUnitDelta d) :=
  (Keeps.look _).bind fun _ => (Keeps.require _ _).bind fun _ =>
    Keeps.bind (fun u => hG.codepoint rfl u _ u.r1 u.r2) fun _ => Keeps.bind (fun u => hG.result u _) fun _ =>
      Keeps.bind (fun u => hG.codepoint rfl u u.prevCp _ u.r2) fun _ u => hG.codepoint rfl u u.prevCp u.r1 _

theorem execUdlDec_keeps (hG : G.Reader .udlDec) (h : execUdlDec s = .next t) : G.rel s t.status t := by
  refine modeCommand_keeps h <| (answers_readDeltaHead.reads.keeps (hG.read (by simp))).bind fun x => ?_
  cases x with
  | escape e =>
    exact Keeps.bind (fun u => hG.result u _) fun _ =>
      Keeps.bind (fun u => hG.codepoint rfl u u.prevCp _ u.r2) fun _ u => hG.codepoint rfl u u.prevCp u.r1 _
  | delta d => exact applyUnitDelta_keeps hG d

/-- A reading command gives every guarantee that allows its writes. -/
theorem reading_keeps {i : Instr} (hi : i ∈ readingCommands) (hG : G.Reader i) (h : exec i s = .next t) :
    G.rel s t.status t := by
  have hanswer {α : Type} (v : α → Nat) (a : α) : Keeps G (setR0 (v a)) := fun u => hG.result u _
  cases i with
  | bsRdbit => exact modeCommand_keeps h <| (answers_getBit.reads.keeps (hG.read (by simp))).bind (hanswer _)
  | bsRd8 => exact modeCommand_keeps h <| (Keeps.look _).bind (hanswer _)
  | bsRdint =>
    exact modeCommand_keeps h <| (Keeps.look _).bind fun n => (Keeps.require _ _).bind fun _ =>
      ((answers_getBits n).reads.keeps (hG.read (by simp))).bind (hanswer _)
  | outPutb => exact execOutPutb_keeps hG h
  | pcRdh => exact modeCommand_keeps h <| (reads_readH.keeps (hG.read (by simp))).bind (hanswer _)
  | pcRdv => exact modeCommand_keeps h <| (reads_readV.keeps (hG.read (by simp))).bind (hanswer _)
  | stepDec =>
    exact modeCommand_keeps h <| (Keeps.look _).bind fun c => (Keeps.require _ _).bind fun _ =>
      ((answers_readStep c).reads.keeps (hG.read (by simp))).bind (hanswer _)
  | cntDec => exact modeCommand_keeps h <| (answers_readCnt.reads.keeps (hG.read (by simp))).bind (hanswer _)
  | udlDec => exact execUdlDec_keeps hG h
  | decStep =>
    obtain ⟨hD, hT⟩ := hG.turn (.inl rfl)
    exact modeCommand_keeps h (hT.keeps_automaton hD.keeps_fetchAndRun)
  | decRun =>
    obtain ⟨hD, hT⟩ := hG.turn (.inr rfl)
    exact modeCommand_keeps h (hT.keeps_runToHalt hD)
  | _ => simp [readingCommands] at hi

end

/-- What is run as a command of DEC mode appends nothing and writes no byte of OUT outside those it outputs (R27,
R29). -/
theorem decCommand_output {i : Instr} {body : Cmd Unit} {s t : State} (hi : i ≠ .init)
    (hb : exec i s = modeCommand .dec body s) (h : exec i s = .next t) :
    t.woff = s.woff ∧ ∀ a, a < s.opos ∨ t.opos ≤ a → t.out.read a = s.out.read a := by
  by_cases hm : s.mode = .dec
  · obtain ⟨r, he⟩ := exec_effects_dec hi hm h
    exact ⟨he.woff_eq nofun, fun a ha => he.read_outside_bytes nofun ha⟩
  · rw [hb, modeCommand_refused fun hs => hm hs.2] at h
    cases h
    exact ⟨rfl, fun _ _ => rfl⟩

theorem reading_output {i : Instr} (hi : i ∈ readingCommands) {s t : State} (h : exec i s = .next t) :
    t.woff = s.woff ∧ ∀ a, a < s.opos ∨ t.opos ≤ a → t.out.read a = s.out.read a := by
  have hl := legalMode_of_reading i hi
  obtain ⟨body, hb⟩ := exec_of_legalMode hl
  exact decCommand_output (by rintro rfl; cases hl) (hb s) h

/-- A reading command leaves a value that does not look at what it writes; a value that looks at none of the places in
question needs no proof of it. -/
theorem reading_value_eq {β : Type} {f : State → β} {i : Instr} {s t : State} (hi : i ∈ readingCommands)
    (h : exec i s = .next t)
    (hread : i ∉ [Instr.bsRd8, .outPutb] → ∀ s n, f (s.afterRead n) = f s := by intros; rfl)
    (hbyte : i = .outPutb → ∀ s out opos ovf need,
      f { s with out := out, opos := opos, ovf := ovf, need := need } = f s := by intros; rfl)
    (hcp : i = .udlDec → ∀ s cp a b, f { s with prevCp := cp, r1 := a, r2 := b } = f s := by intros; rfl)
    (hturn : i = .decStep ∨ i = .decRun → AutomatonBlind f := by exact fun _ => {})
    (hstatus : ∀ s x, f { s with status := x } = f s := by intros; rfl)
    (hres : ∀ s a, f { s with r0 := a } = f s := by intros; rfl) : f t = f s :=
  reading_keeps (G := .keeping f hstatus) hi
    ⟨hres, fun hb s n _ => hread hb s n, fun hb s _ => hbyte hb s, hcp, fun ha => (hturn ha).keeping⟩ h

/-- `OUT.PUTB` writes one byte, at `OPOS` (R129). -/
theorem execOutPutb_read {s t : State} (h : exec .outPutb s = .next t) {a : Nat} (ha : a ≠ s.opos) :
    t.out.read a = s.out.read a := by
  have hstep : t.opos ≤ s.opos + 1 := by
    have h : execOutPutb s = .next t := h
    by_cases hs : s.canDecode
    case neg => rw [execOutPutb, modeCommand_refused hs] at h; cases h; exact Nat.le_succ _
    rw [execOutPutb, modeCommand_run hs.1 hs.2] at h
    cases h
    by_cases hr : s.room 1
    · rw [endCommand_ok (by rw [Cmd.bind_run, opByte_run]; dsimp only; rw [Cmd.bind_run, putByte_room hr]; rfl)]
      exact Nat.le_refl _
    · obtain ⟨u, hu, hrej⟩ := putByte_full (b := lowByte s.a0) hr
      rw [endCommand_error (by rw [Cmd.bind_run, opByte_run]; dsimp only; rw [Cmd.bind_run, hu]), hrej,
        State.byteRejected]
      split <;> exact Nat.le_succ _
  exact (reading_output (by simp [readingCommands]) h).2 a (by omega)

/-- Settles O22: the registers by the writes that each command makes, the bytes by what it outputs. -/
theorem readingCommandsFrame : Obligations.ReadingCommandsFrame := by
  intro i s t hi h
  obtain ⟨hwoff, hbytes⟩ := reading_output hi h
  refine ⟨hwoff, ?_, fun hu => ?_, fun ha => ?_, fun ha => ?_, fun ha => ?_, fun hb => ?_, ?_, hbytes⟩
  · exact reading_value_eq (f := State.r3) hi h
  · have hr := reading_value_eq (f := State.otherResults) hi h (hcp := fun hx => absurd hx hu)
    simp only [State.otherResults, Prod.mk.injEq] at hr
    exact ⟨hr.1, hr.2.1⟩
  · have hm := reading_value_eq (f := fun s => (s.curSet, s.upper, s.halt)) hi h
      (hturn := fun hx => absurd hx (by simpa using ha))
    simpa using hm
  · simp only [List.mem_cons, List.not_mem_nil, or_false, not_or] at ha
    exact reading_value_eq (f := State.prevCp) hi h (hcp := fun hx => absurd hx ha.2.2)
      (hturn := fun hx => absurd hx (by simp [ha]))
  · simp only [List.mem_cons, List.not_mem_nil, or_false, not_or] at ha
    have ho := reading_value_eq (f := fun s => (s.out, s.opos, s.ovf, s.need)) hi h
      (hbyte := fun hx => absurd hx ha.2.2) (hturn := fun hx => absurd hx (by simp [ha]))
    simpa using ho
  · have hr := reading_value_eq (f := fun s => (s.roff, s.reos)) hi h (hread := fun hx => absurd hb hx)
      (hturn := fun hx => by rcases hx with rfl | rfl <;> simp at hb)
    simpa using hr
  · rintro rfl a ha
    exact execOutPutb_read h ha

end Sys2Proof.Machine
end

section
/-!
The queries and the wire forms: what they leave unchanged.
-/

namespace Sys2Proof.Machine

/-! ## The queries -/

/-- The state without its results and its status. -/
def State.unanswered (s : State) : State := { s with r0 := 0, r1 := 0, r2 := 0, r3 := 0, status := .ok }

/-- All but the results and the status is unchanged. -/
abbrev answersOnly : Guarantee := .keeping State.unanswered

theorem answersOnly_eq {s t : State} {e : Status} (h : answersOnly.rel s e t) :
    t = { s with r0 := t.r0, r1 := t.r1, r2 := t.r2, r3 := t.r3, status := t.status } :=
  calc
    t = { t.unanswered with r0 := t.r0, r1 := t.r1, r2 := t.r2, r3 := t.r3, status := t.status } := rfl
    _ = { s.unanswered with r0 := t.r0, r1 := t.r1, r2 := t.r2, r3 := t.r3, status := t.status } := by
      rw [show t.unanswered = s.unanswered from h]

/-- A command of both modes gives the guarantee of its pseudocode (R347). -/
theorem anyModeCommand_keeps {G : Guarantee} {body : Cmd Unit} {s t : State} (h : anyModeCommand body s = .next t)
    (hb : Keeps G body) : G.rel s t.status t := by
  cases h
  refine endCommand_keeps (.bind (fun u => ?_) fun _ => hb) s
  rw [checkReady_run]
  split
  · exact G.refl u .ok
  · exact G.refl u .refused

/-- `PC.CLASS` answers in `R0` to `R2` (R149). -/
theorem execPcClass_keeps {G : Guarantee} (hr : ∀ s a b c, G.rel s .ok { s with r0 := a, r1 := b, r2 := c })
    {s t : State} (h : execPcClass s = .next t) : G.rel s t.status t :=
  anyModeCommand_keeps h <| (Keeps.look _).bind fun _ => (Keeps.look _).bind fun _ =>
    Keeps.bind (fun u => hr u _ u.r1 u.r2) fun _ => Keeps.bind (fun u => hr u u.r0 _ u.r2) fun _ u => hr u u.r0 u.r1 _

/-- `SM.FIND` answers in `R0` to `R3` (R270). -/
theorem execSmFind_answersOnly {s t : State} (h : execSmFind s = .next t) : answersOnly.rel s t.status t := by
  refine modeCommand_keeps h <| (Keeps.look _).bind fun _ => Keeps.readState.bind fun _ => (Keeps.require _ _).bind
    fun _ u => ?_
  unfold setMatch
  split <;> rfl

/-- Settles O23: the writes of results are the only ones. -/
theorem queriesWriteOnlyResults : Obligations.QueriesWriteOnlyResults := by
  rintro i s t (rfl | rfl) h
  · exact ⟨answersOnly_eq (execPcClass_keeps (fun _ _ _ _ => rfl) h),
      fun _ => execPcClass_keeps (G := .keeping State.r3) (fun _ _ _ _ => rfl) h⟩
  · exact ⟨answersOnly_eq (execSmFind_answersOnly h), nofun⟩

/-! ## The wire forms -/

/-- The results but for `R0` are unchanged. -/
abbrev resultsKept : Guarantee := .keeping State.otherResults

theorem resultsKept_decoder : resultsKept.Decoder := otherResults_blind.keeping.1

theorem resultsKept_turns : resultsKept.Turns := otherResults_blind.keeping.2

theorem consume_keeps_results (bits : BitStr) : Keeps resultsKept (consume bits) := fun _ => rfl

theorem inNum_keeps_results {body : Cmd Unit} (h : Keeps resultsKept body) : Keeps resultsKept (inNum body) :=
  Keeps.bind (fun _ => rfl) fun _ => h

theorem bareSymbol_keeps_results (v : Fin 28) : Keeps resultsKept (bareSymbol v) := by
  refine (Keeps.look _).bind fun cur => ?_
  cases restingSymbols cur with
  | some set => exact resultsKept_decoder.keeps_doSymbol set v
  | none => exact .raise _

theorem deltaForm_keeps_results (d : DeltaTok) : Keeps resultsKept (deltaForm d) :=
  (Keeps.look _).bind fun _ =>
    resultsKept_decoder.keeps_deltaEffect (.ite resultsKept_decoder.keeps_switchInDelta (.raise _)) _

theorem putNibbles_keeps_results (up : HexCase) (ns : List (BitVec 4)) : Keeps resultsKept (putNibbles up ns) := by
  induction ns with
  | nil => exact .pure ()
  | cons x xs ih =>
    exact (consume_keeps_results _).bind fun _ => (resultsKept_decoder.keeps_putByte _).bind fun _ => ih

theorem hexForm_keeps_results (up : HexCase) (ns : List (BitVec 4)) : Keeps resultsKept (hexForm up ns) :=
  inNum_keeps_results ((Keeps.require _ _).bind fun _ => putNibbles_keeps_results up ns)

theorem putGuid_keeps_results (up : HexCase) (q : Nat) (ns : List (BitVec 4)) :
    Keeps resultsKept (putGuid up q ns) := by
  induction ns generalizing q with
  | nil => exact .pure ()
  | cons x xs ih =>
    exact (consume_keeps_results _).bind fun _ => (resultsKept_decoder.keeps_putGuidNibble _ _ _).bind fun _ => ih _

theorem putRaw_keeps_results (bs : ByteStr) : Keeps resultsKept (putRaw bs) := by
  induction bs with
  | nil => exact .pure ()
  | cons b bs ih =>
    exact (consume_keeps_results _).bind fun _ => (resultsKept_decoder.keeps_putByte _).bind fun _ => ih

theorem putTemplate_keeps_results (ts : ByteStr) (xs : List Nat) : Keeps resultsKept (putTemplate ts xs) := by
  induction ts generalizing xs with
  | nil => exact .pure ()
  | cons t ts ih =>
    rw [putTemplate.eq_def]
    dsimp only
    cases letterWidth t with
    | none => exact (resultsKept_decoder.keeps_putByte _).bind fun _ => ih xs
    | some w =>
      cases xs with
      | nil => exact .raise _
      | cons x xs =>
        exact (consume_keeps_results _).bind fun _ => (resultsKept_decoder.keeps_putByte _).bind fun _ => ih xs

theorem templateForm_keeps_results (idx : Fin 5) (rem : Nat) (digits : List Nat) :
    Keeps resultsKept (templateForm idx rem digits) := by
  refine inNum_keeps_results ((Keeps.look _).bind fun p => ?_)
  cases templateOf p idx.val with
  | none => exact .raise _
  | some t => exact (Keeps.require _ _).bind fun _ => putTemplate_keeps_results _ _

theorem freqForm_keeps_results (i : Fin 6) : Keeps resultsKept (freqForm i) := by
  refine (Keeps.look _).bind fun p => ?_
  obtain ⟨set, v⟩ := p.pairOf (.freq i)
  cases set with
  | sym => exact resultsKept_decoder.keeps_expandFreq i
  | alpha | num => exact inNum_keeps_results (resultsKept_decoder.keeps_expandFreq i)

/-- The row is a code, read by its unit command (log entry 9). -/
def IsCode (i : Instr) : Prop := ∃ v, ∀ s, exec i s = readForm i v s

/-- The row is a token, executed by the automaton, and its body leaves the results but for `R0` (log entry 10). -/
def IsToken (i : Instr) : Prop :=
  readerOf i ∈ [Reader.token, .switch, .delta] ∧
    ∃ body, (∀ s, exec i s = tokenForm i body s) ∧ Keeps resultsKept body

theorem IsToken.of_body {i : Instr} {body : Cmd Unit} (he : ∀ s, exec i s = tokenForm i body s)
    (hb : Keeps resultsKept body) (hr : readerOf i ∈ [Reader.token, .switch, .delta] := by simp [readerOf]) :
    IsToken i :=
  ⟨hr, body, he, hb⟩

/-- Every wire form but for the marker and the padding is a code or a token. -/
theorem isCode_or_isToken {i : Instr} (hn : commandNumber i = none) (hm : i ≠ .magic) (hp : i ≠ .pad) :
    IsCode i ∨ IsToken i := by
  cases i with
  | magic => exact absurd rfl hm
  | pad => exact absurd rfl hp
  | hAlpha | hSym | hNum | hDict | hDelta | v0 | v1 | v2 | v3 | v4 | v5 | v6 | v7 | v8 | v9 | v10 | v11 | v12 | v13
  | v14 | v15 | v16 | v17 | v18 | v19 | v20 | v21 | v22 | v23 | v24 | v25 | v26 | v27 | step4_0 | step4_1 | step4_2
  | step4_3 | step4_4 | step5_0 | step5_1 | step5_2 | step5_3 | step5_4 | step5_5 | cntTier0 | cntTier1 | cntTier2 | cntTier3
  | cntTier4 => exact .inl ⟨_, fun _ => rfl⟩
  | dltTier0 | dltTier1 | dltTier2 | dltTier3 | dltTier4 | desc0 | desc1 | desc2 | desc3 | desc4 =>
    exact .inr <| .of_body (fun _ => rfl) (deltaForm_keeps_results _)
  | symbol v => exact .inr <| .of_body (fun _ => rfl) (bareSymbol_keeps_results v)
  | swResting x | swDelta x =>
    exact .inr <| .of_body (fun _ => rfl) (resultsKept_decoder.keeps_doTail x)
  | shift v => exact .inr <| .of_body (fun _ => rfl) (resultsKept_decoder.keeps_shiftedLetter v)
  | upperOn | upperOff | toAlpha | enterd => exact .inr <| .of_body (fun _ => rfl) (fun _ => rfl)
  | symSymbol v => exact .inr <| .of_body (fun _ => rfl) (resultsKept_decoder.keeps_doSymbol _ v)
  | numSymbol v =>
    exact .inr <| .of_body (fun _ => rfl) (inNum_keeps_results (resultsKept_decoder.keeps_doSymbol _ v))
  | backref0 | backref1 =>
    exact .inr <| .of_body (fun _ => rfl) (resultsKept_decoder.keeps_copyRef _ _ _)
  | uni1 d => exact .inr <| .of_body (fun _ => rfl) (resultsKept_decoder.keeps_deltaEffect (.raise _) _)
  | rpt r =>
    exact .inr <| .of_body (fun _ => rfl) (inNum_keeps_results (resultsKept_decoder.keeps_repeatLast r))
  | term => exact .inr <| .of_body (fun _ => rfl) (inNum_keeps_results (.raise _))
  | esc0Template idx rem digits =>
    exact .inr <| .of_body (fun _ => rfl) (templateForm_keeps_results idx rem digits)
  | esc1HexLower ns | esc3HexUpper ns =>
    exact .inr <| .of_body (fun _ => rfl) (hexForm_keeps_results _ ns)
  | esc2GuidLower ns | esc4GuidUpper ns =>
    exact .inr <| .of_body (fun _ => rfl) (inNum_keeps_results (putGuid_keeps_results _ 0 ns))
  | esc5Binary bs =>
    exact .inr <| .of_body (fun _ => rfl)
      (inNum_keeps_results ((Keeps.require _ _).bind fun _ => putRaw_keeps_results bs))
  | freq0 | freq1 | freq2 | freq3 | freq4 | freq5 =>
    exact .inr <| .of_body (fun _ => rfl) (freqForm_keeps_results _)
  | ctrlLf | ctrlTab | ctrlCr =>
    exact .inr <| .of_body (fun _ => rfl) (resultsKept_decoder.keeps_putByte _)
  | ctrlCrlf => exact .inr <| .of_body (fun _ => rfl) (resultsKept_decoder.keeps_putBytes _)
  | _ => cases hn

/-- A code read changes `ROFF`, `R0` and `STATUS` (log entry 9). -/
theorem readForm_frame {i : Instr} {v : Nat} {s t : State} (h : readForm i v s = .next t) :
    t = { s with roff := t.roff, r0 := t.r0, status := t.status } := by
  by_cases hs : s.ready = true ∧ s.mode = .dec
  · rw [readForm, modeCommand_run hs.1 hs.2] at h
    cases h
    rfl
  · rw [readForm, modeCommand_refused hs] at h
    cases h
    rfl

/-- A form executed by the automaton leaves the results but for `R0` where its body does. -/
theorem tokenForm_results {i : Instr} {body : Cmd Unit} {s t : State} (h : tokenForm i body s = .next t)
    (hb : Keeps resultsKept body) : t.r1 = s.r1 ∧ t.r2 = s.r2 ∧ t.r3 = s.r3 := by
  have hr : t.otherResults = s.otherResults :=
    modeCommand_keeps (G := resultsKept) h <| Keeps.readState.bind fun _ => (Keeps.require _ _).bind fun _ =>
      resultsKept_turns.keeps_automaton (Keeps.bind (fun _ => rfl) fun _ => hb)
  simpa [State.otherResults] using hr

/-- Settles O56: a code by its three writes, a token by the writes of its body and of the turn around it. -/
theorem wireFormsFrame : Obligations.WireFormsFrame := by
  intro i s t hn hm hp h
  obtain ⟨v, hv⟩ | ⟨htok, body, he, hb⟩ := isCode_or_isToken hn hm hp
  · have hframe := readForm_frame (hv s ▸ h)
    rw [hframe]
    exact ⟨rfl, rfl, rfl, rfl, fun _ => rfl, fun _ _ => rfl⟩
  · obtain ⟨hwoff, hbytes⟩ := decCommand_output (by rintro rfl; cases hn) (he s) h
    obtain ⟨hr1, hr2, hr3⟩ := tokenForm_results (he s ▸ h) hb
    exact ⟨hwoff, hr1, hr2, hr3, fun hc => absurd htok hc, hbytes⟩

end Sys2Proof.Machine
end

section
/-!
Two statements about the automaton and the modes: a turn that has read padding has ended the input, and every step keeps
what the mode and the set say of the other registers.
-/

namespace Sys2Proof.Machine

/-! ## Reading past the end of IN -/

/-- Where no padding had been read, none has been read afterwards unless END_INPUT was raised (R293). -/
def endsTheInput : Guarantee where
  rel s e t := s.reos = false → t.reos = true → e = .endInput
  refl s _ hs ht := by simp [hs] at ht
  trans {s t u e} h h' hs hu := by
    cases ht : t.reos with
    | false => exact h' ht hu
    | true => cases h hs ht
  finish _ h := h

/-- Bits are the only writes of the automaton that set `REOS` (R31). -/
theorem endsTheInput_decoder : endsTheInput.Decoder where
  set _ s _ _ := endsTheInput.refl s .ok
  enterDelta _ s _ := endsTheInput.refl s .ok
  upperOff _ s := endsTheInput.refl s .ok
  upperOn _ s _ := endsTheInput.refl s .ok
  codepoint _ s _ := endsTheInput.refl s .ok
  result _ s _ := endsTheInput.refl s .ok
  write s e _ _ _ _ := endsTheInput.refl s e
  read _ _ _ h _ := h

/-- Settles O48: every read of the automaton's turn is followed by the test of `eos` (R293). -/
theorem stepsThatOverReadEndTheInput : Obligations.StepsThatOverReadEndTheInput := by
  rintro s t ⟨⟨hready, hmode⟩, hhalt, hreos⟩ h ht
  have h : modeCommand .dec (automaton fetchAndRun) s = .next t := h
  rw [modeCommand_run hready hmode] at h
  cases h
  have hbody := endsTheInput_decoder.keeps_fetchAndRun s
  cases hrun : fetchAndRun s with
  | ok _ u =>
    rw [hrun] at hbody
    rw [endCommand_ok (by rw [automaton, if_pos hhalt, hrun])] at ht
    cases hbody hreos ht
  | error e u =>
    rw [hrun] at hbody
    rw [endCommand_error (by rw [automaton, if_pos hhalt, hrun])] at ht ⊢
    obtain rfl : e = .endInput := hbody hreos ht
    exact ⟨rfl, rfl⟩

/-! ## The modes -/

/-- In DELTA `UPPER` is off (R307). -/
def upperOffInDelta : Guarantee := .invariant (fun s => s.curSet = .delta → s.upper = false) fun _ _ => id

/-- The modes are written with `UPPER` off where DELTA is entered, and outside DELTA where `UPPER` is set. -/
theorem upperOffInDelta_modes (W : Part → Prop) : upperOffInDelta.Modes W where
  set _ _ _ hc _ ht := absurd ht hc
  enterDelta _ _ hu _ _ := hu
  upperOff _ _ _ _ := rfl
  upperOn _ _ hs _ ht := absurd ht hs
  codepoint _ _ _ := id
  result _ _ _ := id

theorem upperOffInDelta_decoder : upperOffInDelta.Decoder :=
  { upperOffInDelta_modes (fun _ => True) with write := fun _ _ _ _ _ _ => id, read := fun _ _ _ _ => id }

theorem upperOffInDelta_reader (i : Instr) : upperOffInDelta.Reader i :=
  ⟨fun _ _ => id, fun _ _ _ _ => id, fun _ _ _ _ _ _ _ => id, fun _ _ _ _ _ => id,
    fun _ => ⟨upperOffInDelta_decoder, fun _ _ _ h => h⟩⟩

/-- What a command number stands for (R90, R91). -/
theorem decodeCommand_cases (n : BitVec 8) :
    decodeCommand n = .init ∨ decodeCommand n ∈ appendingCommands ∨ decodeCommand n ∈ readingCommands ∨
      decodeCommand n = .pcClass ∨ decodeCommand n = .smFind ∨ ∃ k, decodeCommand n = .illegal k := by
  unfold decodeCommand
  split <;> simp [appendingCommands, readingCommands]

/-- Every command but `INIT` keeps `UPPER` off in DELTA (R307). -/
theorem exec_keeps_upperOffInDelta {n : BitVec 8} {s t : State} (hi : decodeCommand n ≠ .init)
    (h : exec (decodeCommand n) s = .next t) (hs : s.curSet = .delta → s.upper = false) :
    t.curSet = .delta → t.upper = false := by
  obtain hn | hn | hn | hn | hn | ⟨k, hn⟩ := decodeCommand_cases n
  · exact absurd hn hi
  · exact appending_keeps hn { upperOffInDelta_modes _ with append := fun _ _ _ _ _ _ => id } h hs
  · exact reading_keeps hn (upperOffInDelta_reader _) h hs
  · rw [(queriesWriteOnlyResults _ _ _ (.inl hn) h).1]; exact hs
  · rw [(queriesWriteOnlyResults _ _ _ (.inr hn) h).1]; exact hs
  · rw [hn] at h; cases h; exact hs

/-- The marker's append leaves `SET` and `UPPER` as the call's start gave them (R41). -/
theorem State.marked_upperOffInDelta (s : State) : s.marked.curSet = .delta → s.marked.upper = false :=
  have hG : upperOffInDelta.Encoder fun _ => True :=
    { upperOffInDelta_modes (fun _ => True) with append := fun _ _ _ _ _ _ => id }
  endCommand_keeps (hG.keeps_putBits (List.replicate (flagsMagicLen s.a3) true)) (s.called .enc) fun _ => rfl

/-- A call just started has consistent modes (R41, R371). -/
theorem State.called_modesConsistent {s : State} (m : Mode) (hw : s.preset.wf = true) : (s.called m).ModesConsistent :=
  ⟨fun _ => ⟨rfl, rfl, rfl, rfl⟩, fun _ => rfl, nofun, fun _ => hw⟩

/-- The writes of the current mode's actor keep consistent modes where `UPPER` stays off in DELTA: each actor leaves the
other's registers (R41). -/
theorem Effects.keeps_modesConsistent {s t : State} (h : Effects (actorOf s.mode) s t)
    (hdelta : t.curSet = .delta → t.upper = false) (hs : s.ModesConsistent) : t.ModesConsistent := by
  have hhost := h.hostPart_eq
  have hcall := h.callPart_eq
  simp only [State.hostPart, State.callPart, Prod.mk.injEq] at hhost hcall
  obtain ⟨-, -, -, -, -, -, -, hpreset, -⟩ := hhost
  obtain ⟨hmode, -, -, -, -, hready⟩ := hcall
  refine ⟨fun hm => ?_, fun hm => ?_, hdelta, fun hr => hpreset ▸ hs.preset (hready ▸ hr)⟩
  · have hms : s.mode = .enc := hmode ▸ hm
    have ha : actorOf s.mode = .encoder := by rw [hms]; rfl
    have hd := Effects.decoderPart_eq (ha ▸ h)
    simp only [State.decoderPart, Prod.mk.injEq] at hd
    obtain ⟨hroff, hopos, hreos, hhalt⟩ := hd
    rw [hroff, hopos, hreos, hhalt]
    exact hs.enc hms
  · have hms : s.mode = .dec := hmode ▸ hm
    have ha : actorOf s.mode ≠ .encoder := by rw [hms]; exact nofun
    exact (h.woff_eq ha).trans (hs.dec hms)

/-- `INIT` keeps consistent modes: it starts a call with them or writes `STATUS` only (R41, R371). -/
theorem execInit_keeps_modesConsistent {s t : State} (h : exec .init s = .next t) (hs : s.ModesConsistent) :
    t.ModesConsistent := by
  obtain ⟨e, rfl⟩ | ⟨hw, rfl | rfl⟩ := execInit_outcome h
  · exact { hs with }
  · exact Effects.keeps_modesConsistent (s := s.called .enc) s.marked_effects s.marked_upperOffInDelta
      (s.called_modesConsistent .enc hw)
  · exact ⟨nofun, fun _ => rfl, nofun, fun _ => hw⟩

/-- Settles O11: the host's writes leave the modes, `INIT` starts a call with consistent ones, and every other command
is writes of the current mode's actor that keep `UPPER` off in DELTA. -/
theorem stepKeepsModesConsistent : Obligations.StepKeepsModesConsistent := by
  intro s t hs h
  unfold step at h
  cases hh : s.host with
  | nil => simp only [hh] at h; cases h; exact hs
  | cons w rest =>
    simp only [hh] at h
    have hl : (s.latch w rest).ModesConsistent := { hs with }
    by_cases hi : decodeCommand w.cmd = .init
    · exact execInit_keeps_modesConsistent (hi ▸ h) hl
    · exact Effects.keeps_modesConsistent (exec_ran hi (decodeCommand_ne_magic w.cmd) h).effects
        (exec_keeps_upperOffInDelta hi h hl.delta) hl

end Sys2Proof.Machine
end

section
/-!
A command of several appends as its list of appends (R65, R230): each piece of the encoder's pseudocode is some appends,
and pieces one after another are the appends of both.
-/

namespace Sys2Proof.Machine

/-! ## The appends of a piece of pseudocode -/

/-- Appends made one after another, each with its `SET` and `UPPER`, and then a write of the results (R65, R230). -/
def emitCmd (fin : State → State) : List BitAppend → Cmd Unit
  | [] => update fin
  | a :: as => do
    putBits a.bits
    update (fun t => { t with curSet := a.set, upper := a.upper })
    emitCmd fin as

/-- From a state, a piece of pseudocode makes the given appends and then writes the results. -/
def Emits (fin : State → State) (s : State) (as : List BitAppend) (c : Cmd Unit) : Prop := c s = emitCmd fin as s

/-- The state after appends that all fit: the modes are those of the last one (R65, R230). -/
def State.emitted (s : State) (as : List BitAppend) : State :=
  { s.appended (appendBits as) with
    curSet := (as.map BitAppend.set).getLastD s.curSet, upper := (as.map BitAppend.upper).getLastD s.upper }

/-- The first of several appends, and then the rest from the state it leaves. -/
theorem State.emitted_cons (s : State) (a : BitAppend) (as : List BitAppend) :
    s.emitted (a :: as) = ({ s.appended a.bits with curSet := a.set, upper := a.upper } : State).emitted as := by
  simp only [State.emitted, appendBits_cons, List.map_cons, List.getLastD_cons, State.appended_afterModes]

@[simp] theorem State.emitted_preset (s : State) (as : List BitAppend) : (s.emitted as).preset = s.preset := rfl

@[simp] theorem State.emitted_lhen (s : State) (as : List BitAppend) : (s.emitted as).lhen = s.lhen := rfl

@[simp] theorem State.emitted_prevCp (s : State) (as : List BitAppend) : (s.emitted as).prevCp = s.prevCp := rfl

@[simp] theorem State.emitted_woff (s : State) (as : List BitAppend) :
    (s.emitted as).woff = s.woff + (appendBits as).length := rfl

@[simp] theorem State.emitted_out (s : State) (as : List BitAppend) :
    (s.emitted as).out = s.out.putBits s.woff (appendBits as) := rfl

/-- The modes after appends of which the last is known. -/
theorem State.emitted_concat_modes (s : State) (as : List BitAppend) (a : BitAppend) :
    (s.emitted (as ++ [a])).curSet = a.set ∧ (s.emitted (as ++ [a])).upper = a.upper := by
  simp [State.emitted]

/-- The modes after one append. -/
theorem State.emitted_single_modes (s : State) (a : BitAppend) :
    (s.emitted [a]).curSet = a.set ∧ (s.emitted [a]).upper = a.upper := ⟨rfl, rfl⟩

/-- Where all of the appends fit, the command ends OK with all of them made (R65, R230). -/
theorem State.emits_of_fits {fin : State → State} {s : State} {as : List BitAppend}
    (h : s.fits (appendBits as).length) : s.emits fin as = { fin (s.emitted as) with status := .ok } := by
  induction as using List.reverseRecOn with
  | nil => rfl
  | append_singleton as a => rw [State.emits_fits as a h]; simp [State.emitted]

/-- What the pseudocode of a list of appends leaves as a command (R65, R230). -/
theorem endCommand_emitCmd (fin : State → State) (as : List BitAppend) (s : State) :
    endCommand (emitCmd fin as) s = s.emits fin as := by
  induction as generalizing s with
  | nil => rfl
  | cons a as ih => exact endCommand_putBits fun _ => ih _

/-- An append, and then the appends that the rest makes from the state it leaves. -/
theorem emits_append {fin : State → State} {s : State} {a : BitAppend} {as : List BitAppend} {k : Unit → Cmd Unit}
    (h : k () (s.appended a.bits) = emitCmd fin as { s.appended a.bits with curSet := a.set, upper := a.upper }) :
    Emits fin s (a :: as) (putBits a.bits >>= k) := by
  rw [Emits, emitCmd, Cmd.bind_run, Cmd.bind_run]
  by_cases hf : s.fits a.bits.length
  · simp only [putBits_fits hf, h, Cmd.bind_run, update_run]
  · obtain ⟨t, ht, -⟩ := putBits_unfit hf
    simp only [ht]

section
variable {fin : State → State} {s : State} {as bs : List BitAppend} {α : Type}

/-- Pieces one after another are the appends of both. -/
theorem Emits.bind {c : Cmd Unit} {f : Unit → Cmd Unit} (hc : Emits id s as c)
    (hf : Emits fin (s.emitted as) bs (f ())) : Emits fin s (as ++ bs) (c >>= f) := by
  have hrun : (c >>= f) s = (emitCmd id as >>= f) s := by rw [Cmd.bind_run, hc, Cmd.bind_run]
  rw [Emits, hrun]
  clear hrun hc
  induction as generalizing s with
  | nil => exact hf
  | cons a as ih =>
    rw [emitCmd, bind_assoc]
    exact emits_append (ih (by rwa [State.emitted_cons] at hf))

theorem Emits.pure : Emits id s [] (pure ()) := rfl

theorem Emits.update (fin : State → State) : Emits fin s [] (update fin) := rfl

theorem Emits.look {f : State → α} {k : α → Cmd Unit} (h : Emits fin s as (k (f s))) :
    Emits fin s as (look f >>= k) := h

theorem Emits.readState {k : State → Cmd Unit} (h : Emits fin s as (k s)) :
    Emits fin s as (Machine.readState >>= k) := h

theorem Emits.require {c : Prop} [Decidable c] {e : Status} {k : Unit → Cmd Unit} (hc : c)
    (h : Emits fin s as (k ())) : Emits fin s as (Machine.require c e >>= k) := by
  rw [Emits, Cmd.bind_run, require_run, if_pos hc]
  exact h

theorem Emits.ite_pos {c : Prop} [Decidable c] {x y : Cmd Unit} (hc : c) (h : Emits fin s as x) :
    Emits fin s as (if c then x else y) := by
  rwa [if_pos hc]

theorem Emits.ite_neg {c : Prop} [Decidable c] {x y : Cmd Unit} (hc : ¬ c) (h : Emits fin s as y) :
    Emits fin s as (if c then x else y) := by
  rwa [if_neg hc]

/-- A command of ENC mode does the appends of its pseudocode (R65, R230, R348). -/
theorem modeCommand_emits {body : Cmd Unit} (hs : s.canEncode) (h : Emits fin s as body) :
    modeCommand .enc body s = .next (s.emits fin as) := by
  rw [modeCommand_run hs.1 hs.2, ← endCommand_emitCmd, endCommand, endCommand, h]

/-- A command of ENC mode that raises a status before it does anything else writes only that (R341, R348). -/
theorem modeCommand_raises {body : Cmd Unit} {e : Status} (hs : s.canEncode) (h : body s = .error e s) :
    modeCommand .enc body s = .next { s with status := e } := by
  rw [modeCommand_run hs.1 hs.2, endCommand_error h]

/-- A command of several appends, and what it leaves where all of them fit. -/
theorem emits_and_fits {i : Instr} {t : State} (h : exec i s = .next (s.emits fin as))
    (ht : { fin (s.emitted as) with status := .ok } = t) :
    exec i s = .next (s.emits fin as) ∧ (s.fits (appendBits as).length → exec i s = .next t) :=
  ⟨h, fun hf => by rw [h, State.emits_of_fits hf, ht]⟩

/-- A command of one append: made, or rejected. -/
theorem emits_single {i : Instr} {a : BitAppend} (h : exec i s = .next (s.emits id [a])) :
    (s.fits a.bits.length →
      exec i s = .next { s.appended a.bits with curSet := a.set, upper := a.upper, status := .ok }) ∧
    (¬ s.fits a.bits.length → exec i s = .next (s.overflowed a.bits.length)) :=
  ⟨fun hf => by rw [h, State.emits_cons_fits [] hf]; rfl, fun hf => by rw [h, State.emits_cons_unfit [] hf]⟩

end

/-! ## The emitters -/

theorem emits_putBits {s : State} {c : Resting} {u : Bool} (bits : BitStr) (hm : s.curSet = c ∧ s.upper = u) :
    Emits id s [⟨bits, c, u⟩] (putBits bits) := by
  obtain ⟨rfl, rfl⟩ := hm
  have h : Emits id s [plainAppend s bits] (putBits bits >>= Pure.pure) := emits_append (a := plainAppend s bits) rfl
  rwa [bind_pure] at h

theorem emits_emitV {s : State} {p : Preset} {c : Resting} {u : Bool} (v : Fin 28) (hm : s.curSet = c ∧ s.upper = u)
    (hp : s.preset = p := by simp) : Emits id s [⟨p.v v, c, u⟩] (emitV v) :=
  hp ▸ .look (emits_putBits _ hm)

/-- `EmitSW(h)` is one append, after which `SET` is what R151 says. -/
theorem emits_emitSW (s : State) (h : SetId) :
    Emits id s [appendIn s (setAfter s.curSet h) (switchBits s.preset s.curSet h)] (emitSW h) := by
  refine .readState (emits_append (a := appendIn s (setAfter s.curSet h) (switchBits s.preset s.curSet h)) ?_)
  cases h <;> rfl

theorem emits_emitSWUnless_alpha (s : State) :
    Emits id s (switchAppend s .alpha .alpha) (emitSWUnless .alpha .alpha) := by
  rw [switchAppend]
  refine .readState ?_
  by_cases h : s.curSet = .alpha
  · rw [if_pos h, if_pos h]; exact .pure
  · rw [if_neg h, if_neg h]; exact emits_emitSW s .alpha

theorem emits_emitSWUnless_num (s : State) : Emits id s (switchAppend s .num .num) (emitSWUnless .num .num) := by
  rw [switchAppend]
  refine .readState ?_
  by_cases h : s.curSet = .num
  · rw [if_pos h, if_pos h]; exact .pure
  · rw [if_neg h, if_neg h]; exact emits_emitSW s .num

/-- After the switch that is sent from another resting set only, the resting set is the one wanted (R154, R233). -/
theorem State.emitted_switchAppend_modes (s : State) (cur : Resting) (h : SetId) :
    (s.emitted (switchAppend s cur h)).curSet = cur ∧ (s.emitted (switchAppend s cur h)).upper = s.upper := by
  by_cases hc : s.curSet = cur
  · rw [switchAppend, if_pos hc]; exact ⟨hc, rfl⟩
  · rw [switchAppend, if_neg hc]; exact ⟨rfl, rfl⟩

/-- `EmitNUM(v)` (R233). -/
theorem emits_emitNUM (s : State) (v : Fin 28) :
    Emits id s (switchAppend s .num .num ++ [appendIn s .num (s.preset.v v)]) (emitNUM v) :=
  (emits_emitSWUnless_num s).bind (emits_emitV v (s.emitted_switchAppend_modes _ _))

/-- `EmitESC(k)` (R232). -/
theorem emits_emitESC (s : State) (k : Nat) : Emits id s (escAppends s k) (emitESC k) :=
  (emits_emitSW s .num).bind <| (emits_emitV switchIndex (State.emitted_single_modes _ _)).bind <|
    emits_putBits _ (State.emitted_single_modes _ _)

end Sys2Proof.Machine
end

section
/-!
The commands that move the resting set, as their appends (R152, R160).
-/

namespace Sys2Proof.Machine

theorem execPcSw_emits {s : State} (hs : s.canEncode) (h0 : s.a0 = 0) (hc : s.curSet ≠ .alpha) :
    exec .pcSw s = .next (s.emits id [appendIn s .alpha (switchBits s.preset s.curSet .alpha)]) :=
  modeCommand_emits hs <| .look <| .look <| .require ⟨by rw [h0]; rfl, hc⟩ (emits_emitSW s .alpha)

theorem setOfNumber_alpha_iff {n : Nat} : setOfNumber n = some .alpha ↔ n = 0 := by
  unfold setOfNumber
  split <;> simp_all

theorem execPcSw_refused {s : State} (hs : s.canEncode) (h : s.a0 ≠ 0 ∨ s.curSet = .alpha) :
    exec .pcSw s = .next { s with status := .refused } := by
  have hbad : ¬ (setOfNumber s.a0.toNat = some .alpha ∧ s.curSet ≠ .alpha) := by
    rintro ⟨h0, hc⟩
    exact h.elim (· (BitVec.eq_of_toNat_eq (setOfNumber_alpha_iff.mp h0))) hc
  exact modeCommand_raises hs (by simp only [Cmd.bind_run, opA0_run, look_run, require_run, if_neg hbad])

theorem execPcEnterd_refused {s : State} (hs : s.canEncode) (hc : s.curSet = .delta) :
    exec .pcEnterd s = .next { s with status := .refused } :=
  modeCommand_raises hs (by simp [hc])

/-- The last append of `PC.ENTERD` and the entry into DELTA (R160). -/
theorem emits_enterDelta {s : State} (bits : BitStr) (hu : s.upper = false) :
    Emits id s [⟨bits, .delta, false⟩]
      (do putBits bits; update (fun t => { t with curSet := .delta })) :=
  emits_append (a := ⟨bits, .delta, false⟩) (by rw [← hu]; rfl)

/-- The append that leaves all-uppercase mode (R159). -/
theorem emits_upperOff {fin : State → State} {s : State} {c : Resting} {as : List BitAppend} {bits : BitStr}
    {k : Cmd Unit} (hc : s.curSet = c)
    (hk : Emits fin { s.appended bits with upper := false } as k) :
    Emits fin s (⟨bits, c, false⟩ :: as) (do putBits bits; setUpper false; k) := by
  subst hc
  exact emits_append (a := ⟨bits, s.curSet, false⟩) hk

theorem execPcEnterd_emits {s : State} (hs : s.canEncode) (hc : s.curSet ≠ .delta) :
    exec .pcEnterd s = .next (s.emits id (switchAppend s .alpha .alpha ++
      (if s.upper then [⟨shiftBits s.preset, .alpha, false⟩] else []) ++
        [⟨shiftBits s.preset ++ s.preset.v spaceIndex, .delta, false⟩])) := by
  obtain ⟨hset, hupper⟩ := s.emitted_switchAppend_modes .alpha .alpha
  refine modeCommand_emits hs <| .look <| .require hc ?_
  rw [List.append_assoc]
  refine (emits_emitSWUnless_alpha s).bind <| .readState ?_
  by_cases hu : s.upper = true
  · rw [if_pos hu]
    exact .ite_pos (hupper.trans hu) <| emits_upperOff hset <| emits_enterDelta _ rfl
  · rw [if_neg hu]
    exact .ite_neg (hupper ▸ hu) <| emits_enterDelta _ (hupper.trans (by simpa using hu))

/-- Settles O30: `PC.SW` is one append, `PC.ENTERD` up to three. -/
theorem switchAndEnterdMoveTheRestingSet : Obligations.SwitchAndEnterdMoveTheRestingSet := by
  refine fun s hs => ⟨fun h0 hc => emits_single (execPcSw_emits hs h0 hc), execPcSw_refused hs,
    execPcEnterd_refused hs, ?_⟩
  rintro parts hc rfl
  exact emits_and_fits (execPcEnterd_emits hs hc) (by simp [State.emitted])

end Sys2Proof.Machine
end

section
/-!
All-uppercase mode, the line-control symbols and the terminator.
-/

namespace Sys2Proof.Machine

/-! ## The one place of a symbol -/

theorem Preset.mem_placesIn {p : Preset} {set : SymSet} {y : Symbol} {v : Fin 28} :
    v ∈ p.placesIn set y ↔ p.symbol set v = y := by
  simp [Preset.placesIn, indices]

/-- Where a set holds a symbol at one place, that is its index. -/
theorem Preset.indexIn_of_placesIn {p : Preset} {set : SymSet} {y : Symbol} {v : Fin 28} (h : p.placesIn set y = [v]) :
    p.indexIn set y = v := by
  rw [Preset.indexIn, h]

/-- A list of at most one entry that has a given one is that one. -/
theorem eq_singleton_of_mem {α : Type} {l : List α} {a : α} (hl : l.length ≤ 1) (ha : a ∈ l) : l = [a] := by
  match l, hl, ha with
  | [b], _, ha => rw [List.mem_singleton.mp ha]

/-- The terminator has one place in NUM (R141 (d)). -/
theorem Preset.placesIn_term {p : Preset} (hw : p.wf = true) {v : Fin 28} (hv : p.symbol .num v = .term) :
    p.placesIn .num .term = [v] := by
  simp only [Preset.wf, Preset.wfSpecials, Bool.and_eq_true, decide_eq_true_eq] at hw
  exact eq_singleton_of_mem hw.1.2.2.le (Preset.mem_placesIn.mpr hv)

/-- A vertical code has 2 to 8 bits (R141 (b)). -/
theorem Preset.wf_v_length {p : Preset} (hw : p.wf = true) (v : Fin 28) :
    2 ≤ (p.v v).length ∧ (p.v v).length ≤ 8 := by
  simp only [Preset.wf, Preset.wfVertical, Bool.and_eq_true, List.all_eq_true, decide_eq_true_eq] at hw
  obtain ⟨⟨⟨⟨-, hv⟩, -⟩, -⟩, -⟩ := hw
  exact hv.1 _ (by simp [Preset.v])

/-! ## All-uppercase mode -/

theorem execPcUpper_range {s : State} (hs : s.canEncode) (h : 1 < s.a0.toNat) :
    exec .pcUpper s = .next { s with status := .range } := by
  refine modeCommand_raises hs ?_
  rw [Cmd.bind_run, opA0_run]
  simp only [if_neg (show ¬ s.a0.toNat = 1 by omega), if_neg (show ¬ s.a0.toNat = 0 by omega), raise_run]

theorem execPcUpper_on_refused {s : State} (hs : s.canEncode) (h : s.a0 = 1) (hu : s.upper = true) :
    exec .pcUpper s = .next { s with status := .refused } :=
  modeCommand_raises hs (by simp [h, upperOnCommand, hu])

theorem execPcUpper_off_refused {s : State} (hs : s.canEncode) (h : s.a0 = 0) (hu : s.upper = false) :
    exec .pcUpper s = .next { s with status := .refused } :=
  modeCommand_raises hs (by simp [h, upperOffCommand, hu])

/-- An append after which `UPPER` is written (R158, R159). -/
theorem emits_thenUpper {s : State} {c : Resting} (bits : BitStr) (u : Bool) (hc : s.curSet = c) :
    Emits id s [⟨bits, c, u⟩] (do putBits bits; setUpper u) := by
  subst hc
  exact emits_append (a := ⟨bits, s.curSet, u⟩) rfl

theorem execPcUpper_on_emits {s : State} (hs : s.canEncode) (h : s.a0 = 1) (hu : s.upper = false) :
    exec .pcUpper s = .next (s.emits id (switchAppend s .alpha .alpha ++
      [⟨shiftBits s.preset ++ shiftBits s.preset, .alpha, true⟩])) :=
  modeCommand_emits hs <| .look <| .ite_pos (by rw [h]; rfl) <| .look <| .require hu <|
    (emits_emitSWUnless_alpha s).bind <| .look <|
      emits_thenUpper (s := s.emitted (switchAppend s .alpha .alpha)) _ true (s.emitted_switchAppend_modes _ _).1

theorem execPcUpper_off_emits {s : State} (hs : s.canEncode) (h : s.a0 = 0) (hu : s.upper = true) :
    exec .pcUpper s = .next (s.emits id (switchAppend s .alpha .alpha ++ [⟨shiftBits s.preset, .alpha, false⟩])) :=
  modeCommand_emits hs <| .look <| .ite_neg (by rw [h]; decide) <| .ite_pos (by rw [h]; rfl) <| .look <| .require hu <|
    (emits_emitSWUnless_alpha s).bind <| .look <|
      emits_thenUpper (s := s.emitted (switchAppend s .alpha .alpha)) _ false (s.emitted_switchAppend_modes _ _).1

/-- Settles O33: each direction is the switch, if needed, and one append. -/
theorem upperCommandTogglesTheMode : Obligations.UpperCommandTogglesTheMode := by
  refine fun s hs => ⟨execPcUpper_range hs, execPcUpper_on_refused hs, execPcUpper_off_refused hs, ?_, ?_⟩
  · rintro parts h hu rfl
    refine emits_and_fits ?_ (by simp [State.emitted])
    rw [execPcUpper_on_emits hs h hu, List.append_assoc (s.preset.v 0 ++ s.preset.h .alpha)]
    rfl
  · rintro parts h hu rfl
    exact emits_and_fits (execPcUpper_off_emits hs h hu) (by simp [State.emitted])

/-! ## The line-control symbols -/

theorem execPcCtrl_range {s : State} (hs : s.canEncode) (h : 3 < s.a0.toNat) :
    exec .pcCtrl s = .next { s with status := .range } := by
  refine modeCommand_raises hs ?_
  simp only [Cmd.bind_run, opA0_run, require_run, if_neg (show ¬ s.a0.toNat ≤ 3 by omega)]

/-- LF in DELTA is the escape NEWLINE (R156). -/
theorem execPcCtrl_newline {s : State} (hs : s.canEncode) (h : s.a0 = 0) (hc : s.curSet = .delta) :
    exec .pcCtrl s = .next (s.emits id [plainAppend s (escapeBits 4)]) :=
  modeCommand_emits hs <| .look <| .require (by rw [h]; decide) <| .readState <| .ite_pos ⟨by rw [h]; rfl, hc⟩ <|
    emits_putBits _ ⟨rfl, rfl⟩

theorem execPcCtrl_emits {s : State} (hs : s.canEncode) (hn : ¬ (s.a0 = 0 ∧ s.curSet = .delta))
    (h : s.a0.toNat ≤ 3) :
    exec .pcCtrl s = .next (s.emits id [plainAppend s (switchBits s.preset s.curSet .sym),
      plainAppend s (s.preset.v (s.preset.indexIn .sym (controlSymbol s.a0.toNat)))]) :=
  modeCommand_emits hs <| .look <| .require h <| .readState <|
    .ite_neg (fun ⟨h0, hc⟩ => hn ⟨BitVec.eq_of_toNat_eq h0, hc⟩) <|
      (emits_emitSW s .sym).bind (emits_emitV _ (State.emitted_single_modes _ _))

/-- Settles O32: the escape is one append, a symbol of SYM the switch and its code. -/
theorem lineControlAppendsItsCode : Obligations.LineControlAppendsItsCode := by
  refine fun s hs => ⟨execPcCtrl_range hs, fun h hc => emits_single (execPcCtrl_newline hs h hc), ?_,
    fun hn h => ?_⟩
  · rintro v parts hn hplace rfl
    have hkind : s.a0.toNat ≤ 3 ∧ s.preset.placesIn .sym (controlSymbol s.a0.toNat) = [v] := by
      obtain ⟨h, hp⟩ | ⟨h, hp⟩ | ⟨h, hp⟩ | ⟨h, hp⟩ := hplace <;> rw [h] <;> exact ⟨by decide, hp⟩
    have hv := Preset.indexIn_of_placesIn hkind.2
    exact emits_and_fits (hv ▸ execPcCtrl_emits hs hn hkind.1) rfl
  · have hexec := execPcCtrl_emits hs hn h
    generalize s.preset.indexIn .sym (controlSymbol s.a0.toNat) = v at hexec
    refine ⟨⟨v, hexec⟩, fun hw hf => ⟨v, ?_⟩⟩
    have hlen := (Preset.wf_v_length hw v).2
    rw [hexec, State.emits_of_fits ⟨hf.1, ?_⟩]
    · simp [State.emitted, plainAppend]
    · have hcap := hf.2
      simp only [plainAppend, appendBits_cons, appendBits_nil, List.length_append, List.length_nil]
      omega

/-! ## The terminator -/

/-- The last bit of an append stands at the end of the stream (R121, R162). -/
theorem Memory.bit_putBits_last {m : Memory} (hm : m.wf = true) (o : Nat) {bits : BitStr} (hb : bits ≠ []) :
    (m.putBits o bits).bit (o + bits.length - 1) = bits.getLastD false := by
  have hlen := List.length_pos_iff.mpr hb
  rw [Nat.add_sub_assoc hlen, Memory.bit_putBits_inside hm o bits (by omega), List.getLastD_eq_getLast?,
    List.getLast?_eq_some_getLast hb, List.getLast_eq_getElem hb]
  rfl

/-- `Pad()`: the last bit up to the byte boundary (R162). -/
theorem emits_padOut {s : State} {c : Resting} {u b : Bool} {n : Nat} (hn : n = (8 - s.woff % 8) % 8)
    (hb : s.out.bit (s.woff - 1) = b) (hm : s.curSet = c ∧ s.upper = u) :
    Emits id s (if n = 0 then [] else [⟨List.replicate n b, c, u⟩]) padOut := by
  refine .readState ?_
  by_cases h : s.woff % 8 = 0
  · rw [if_pos (by omega)]
    exact .ite_pos h .pure
  · obtain rfl : n = 8 - s.woff % 8 := by omega
    rw [if_neg (by omega), ← hb]
    exact .ite_neg h (emits_putBits _ hm)

theorem execPcTerm_emits {s : State} {v : Fin 28} {body : List BitAppend} {n : Nat} (hs : s.canEncode)
    (hw : s.preset.wf = true) (ho : s.out.wf = true) (hv : s.preset.symbol .num v = .term)
    (hbody : body = switchAppend s .num .num ++ [appendIn s .num (s.preset.v v)])
    (hn : n = (8 - (s.woff + (appendBits body).length) % 8) % 8) :
    exec .pcTerm s = .next (s.emits (fun t => { t with r0 := BitVec.ofNat 32 ((t.woff + 7) / 8) })
      (body ++ (if n = 0 then [] else [appendIn s .num (List.replicate n ((s.preset.v v).getLastD false))]))) := by
  have hbits : appendBits body = switchUnless s .num .num ++ s.preset.v v := by
    rw [hbody, appendBits_append, appendBits_switchAppend, appendBits_cons, appendBits_nil, List.append_nil]; rfl
  have hne : s.preset.v v ≠ [] := List.length_pos_iff.mp (by have := (Preset.wf_v_length hw v).1; omega)
  have hlast : (s.emitted body).out.bit ((s.emitted body).woff - 1) = (s.preset.v v).getLastD false := by
    rw [State.emitted_out, State.emitted_woff, Memory.bit_putBits_last ho _ (by simp [hbits, hne]), hbits,
      List.getLastD_eq_getLast?, List.getLastD_eq_getLast?, List.getLast?_append_of_ne_nil _ hne]
  have hmodes : (s.emitted body).curSet = .num ∧ (s.emitted body).upper = s.upper :=
    hbody ▸ s.emitted_concat_modes _ _
  have hindex := Preset.indexIn_of_placesIn (Preset.placesIn_term hw hv)
  have hemit : Emits id s body (emitNUM (s.preset.indexIn .num .term)) := by rw [hindex, hbody]; exact emits_emitNUM s v
  have hpad := (emits_padOut hn hlast hmodes).bind (fin := fun t => { t with r0 := BitVec.ofNat 32 ((t.woff + 7) / 8) })
    (f := fun _ => do let w ← look State.woff; setR0 ((w + 7) / 8)) (.update _)
  rw [List.append_nil] at hpad
  exact modeCommand_emits hs <| .look <| hemit.bind hpad

/-- Settles O34: the terminator's appends, then the padding, whose length takes the stream to a byte boundary. -/
theorem terminatorPadsToTheByte : Obligations.TerminatorPadsToTheByte := by
  rintro s v body pad n hs hw ho hv hbody hn rfl
  generalize hb : (s.preset.v v).getLastD false = b
  have hexec := hb ▸ execPcTerm_emits hs hw ho hv hbody hn
  have hbits : appendBits (if n = 0 then [] else [appendIn s .num (List.replicate n b)]) = List.replicate n b := by
    split
    case isTrue h0 => rw [h0]; rfl
    case isFalse => simp [appendIn]
  have hall : s.emitted (body ++ (if n = 0 then [] else [appendIn s .num (List.replicate n b)])) =
      { s.appended (appendBits body ++ List.replicate n b) with curSet := .num } := by
    rw [State.emitted, appendBits_append, hbits]
    split <;> simp [hbody, appendIn]
  have hround : (s.woff + (appendBits body).length + n + 7) / 8 = (s.woff + (appendBits body).length + n) / 8 := by
    omega
  refine emits_and_fits hexec ?_ |>.imp id fun h hf => h ?_
  · rw [hall, ← hround]
    simp [Nat.add_assoc]
  · rwa [appendBits_append, hbits, List.length_append, List.length_replicate]

end Sys2Proof.Machine
end

section
/-!
The literals: the class of a printable character, and the appends of each branch of `PC.LIT` (R154).
-/

namespace Sys2Proof.Machine

/-! ## The class of a character -/

theorem Preset.mem_places {p : Preset} {y : Symbol} {set : SymSet} {v : Fin 28} :
    (set, v) ∈ p.places y ↔ p.symbol set v = y := by
  cases set <;> simp [Preset.places, Preset.mem_placesIn]

/-- Where a Preset holds a symbol at one place, that is its pair. -/
theorem Preset.pairOf_of_places {p : Preset} {y : Symbol} {q : SymSet × Fin 28} (h : p.places y = [q]) :
    p.pairOf y = q := by
  rw [Preset.pairOf, h]

/-- A printable character has one place, which is its class (R140, R141 (c)). -/
theorem Preset.classOf_eq {p : Preset} (hw : p.wf = true) {c : Byte} (hc : 0x21 ≤ c.toNat) (hc' : c.toNat ≤ 0x7E)
    {set : SymSet} {v : Fin 28} (h : p.symbol set v = .chr (lowercase c)) : p.classOf c = (set, v) := by
  simp only [Preset.wf, Preset.wfCharacters, Bool.and_eq_true, List.all_eq_true, decide_eq_true_eq] at hw
  obtain ⟨⟨⟨-, ⟨⟨⟨⟨⟨hplaces, -⟩, -⟩, -⟩, -⟩, -⟩⟩, -⟩, -⟩ := hw
  have hmem : c ∈ printables :=
    List.mem_map.mpr ⟨c.toNat - 0x21, List.mem_range.mpr (by omega),
      BitVec.eq_of_toNat_eq (by rw [BitVec.toNat_ofNat]; omega)⟩
  rw [Preset.classOf]
  exact Preset.pairOf_of_places (eq_singleton_of_mem (hplaces c hmem).le (Preset.mem_places.mpr h))

/-- NUM holds the space at one place at most (R141 (c)). -/
theorem Preset.placesIn_space {p : Preset} (hw : p.wf = true) {v : Fin 28} (hv : p.symbol .num v = .chr 0x20) :
    p.placesIn .num (.chr 0x20) = [v] := by
  simp only [Preset.wf, Preset.wfCharacters, Bool.and_eq_true, decide_eq_true_eq] at hw
  exact eq_singleton_of_mem hw.1.1.2.2 (Preset.mem_placesIn.mpr hv)

theorem lowercase_of_upper {c : Byte} (h : uppercaseCode c) : lowercase c = c + 32 := if_pos h

theorem lowercase_of_not_upper {c : Byte} (h : ¬ uppercaseCode c) : lowercase c = c := if_neg h

/-! ## The branches -/

/-- The uppercase branch: the shift is sent unless all-uppercase mode is on. -/
theorem emits_litUpper {s : State} {c : Byte} {v : Fin 28} (h : s.preset.classOf c = (.alpha, v)) :
    Emits id s (switchAppend s .alpha .alpha ++
      (if s.upper then [] else [appendIn s .alpha (shiftBits s.preset)]) ++ [appendIn s .alpha (s.preset.v v)])
      (litUpper c) := by
  have hmodes := s.emitted_switchAppend_modes .alpha .alpha
  rw [List.append_assoc]
  refine (emits_emitSWUnless_alpha s).bind <| .readState ?_
  rw [State.emitted_preset, h]
  by_cases hu : s.upper = true
  · rw [if_pos hu]
    exact .ite_pos (hmodes.2.trans hu) (emits_emitV _ hmodes)
  · rw [if_neg hu]
    exact .ite_neg (hmodes.2 ▸ hu) <| (emits_putBits _ hmodes).bind <|
      emits_emitV _ (State.emitted_single_modes _ _)

/-- A lowercase letter: all-uppercase mode is left where it is on. -/
theorem emits_litOther_alpha {s : State} {c : Byte} {v : Fin 28} (h : s.preset.classOf c = (.alpha, v)) :
    Emits id s (switchAppend s .alpha .alpha ++ (if s.upper then [⟨shiftBits s.preset, .alpha, false⟩] else []) ++
      [⟨s.preset.v v, .alpha, false⟩]) (litOther c) := by
  obtain ⟨hset, hupper⟩ := s.emitted_switchAppend_modes .alpha .alpha
  rw [List.append_assoc]
  refine .look ?_
  rw [h]
  refine (emits_emitSWUnless_alpha s).bind <| .readState ?_
  by_cases hu : s.upper = true
  · rw [if_pos hu]
    exact .ite_pos (hupper.trans hu) <| emits_upperOff hset <| emits_emitV _ ⟨hset, rfl⟩
  · rw [if_neg hu]
    exact .ite_neg (hupper ▸ hu) <| emits_emitV _ ⟨hset, hupper.trans (by simpa using hu)⟩

theorem emits_litOther_sym {s : State} {c : Byte} {v : Fin 28} (h : s.preset.classOf c = (.sym, v)) :
    Emits id s [plainAppend s (switchBits s.preset s.curSet .sym), plainAppend s (s.preset.v v)] (litOther c) := by
  refine .look ?_
  rw [h]
  exact (emits_emitSW s .sym).bind (emits_emitV _ (State.emitted_single_modes _ _))

theorem emits_litOther_num {s : State} {c : Byte} {v : Fin 28} (h : s.preset.classOf c = (.num, v)) :
    Emits id s (switchAppend s .num .num ++ [appendIn s .num (s.preset.v v)]) (litOther c) := by
  refine .look ?_
  rw [h]
  exact emits_emitNUM s v

/-- The space where NUM is at rest and holds one. -/
theorem emits_litSpace_num {s : State} {v : Fin 28} (hc : s.curSet = .num)
    (h : s.preset.placesIn .num (.chr 0x20) = [v]) :
    Emits id s [plainAppend s (s.preset.v v)] litSpace := by
  obtain rfl := Preset.indexIn_of_placesIn h
  exact .readState <| .ite_pos ⟨hc, by rw [h]; exact List.cons_ne_nil _ _⟩ (emits_emitV _ ⟨rfl, rfl⟩)

theorem emits_litSpace_delta {s : State} (hc : s.curSet = .delta) :
    Emits id s [plainAppend s (escapeBits 0)] litSpace :=
  .readState <| .ite_neg (by simp [hc]) <| .ite_pos hc (emits_putBits _ ⟨rfl, rfl⟩)

theorem emits_litSpace_alpha {s : State}
    (hc : s.curSet = .alpha ∨ (s.curSet = .num ∧ s.preset.placesIn .num (.chr 0x20) = [])) :
    Emits id s (switchAppend s .alpha .alpha ++ [appendIn s .alpha (s.preset.v spaceIndex)]) litSpace := by
  have hnum : ¬ (s.curSet = .num ∧ s.preset.placesIn .num (.chr 0x20) ≠ []) := by
    rintro ⟨hn, hp⟩
    exact hc.elim (fun ha => by simp [ha] at hn) fun h => hp h.2
  have hdelta : s.curSet ≠ .delta := by
    obtain ha | ⟨hn, -⟩ := hc
    · simp [ha]
    · simp [hn]
  exact .readState <| .ite_neg hnum <| .ite_neg hdelta <|
    (emits_emitSWUnless_alpha s).bind (emits_emitV _ (s.emitted_switchAppend_modes _ _))

/-! ## The choice of branch -/

section
variable {s : State} {c : Byte} {as : List BitAppend}

theorem emits_literal_upper (hc : uppercaseCode c) (h : Emits id s as (litUpper c)) : Emits id s as (literal c) :=
  .look <| .ite_pos (decide_eq_true hc) h

theorem emits_literal_space (h : Emits id s as litSpace) : Emits id s as (literal 0x20) :=
  .look <| .ite_neg (by decide) <| .ite_pos rfl h

theorem emits_literal_comma (hs : s.curSet = .delta) : Emits id s [plainAppend s (escapeBits 2)] (literal 0x2C) :=
  .look <| .ite_neg (by decide) <| .ite_neg (by decide) <| .ite_pos ⟨hs, rfl⟩ (emits_putBits _ ⟨rfl, rfl⟩)

theorem emits_literal_period (hs : s.curSet = .delta) : Emits id s [plainAppend s (escapeBits 3)] (literal 0x2E) :=
  .look <| .ite_neg (by decide) <| .ite_neg (by decide) <| .ite_neg (by simp) <| .ite_pos ⟨hs, rfl⟩
    (emits_putBits _ ⟨rfl, rfl⟩)

theorem emits_literal_other (hu : ¬ uppercaseCode c) (hc : 0x21 ≤ c.toNat)
    (hd : ¬ (s.curSet = .delta ∧ (c = 0x2C ∨ c = 0x2E))) (h : Emits id s as (litOther c)) :
    Emits id s as (literal c) :=
  .look <| .ite_neg (by simpa [isUpperLetter] using hu) <| .ite_neg (by rintro rfl; exact absurd hc (by decide)) <|
    .ite_neg (fun ⟨hs, he⟩ => hd ⟨hs, .inl he⟩) <| .ite_neg (fun ⟨hs, he⟩ => hd ⟨hs, .inr he⟩) h

theorem execPcLit_emits (hs : s.canEncode) (hc : c = s.a0.setWidth 8) (hlo : 0x20 ≤ c.toNat) (hhi : c.toNat ≤ 0x7E)
    (h : Emits id s as (literal c)) : exec .pcLit s = .next (s.emits id as) := by
  subst hc
  exact modeCommand_emits hs <| .look <| .require ⟨hlo, hhi⟩ h

theorem execPcLit_range (hs : s.canEncode) (hc : c = s.a0.setWidth 8) (h : c.toNat < 0x20 ∨ 0x7E < c.toNat) :
    exec .pcLit s = .next { s with status := .range } := by
  subst hc
  have hbad : ¬ (0x20 ≤ (lowByte s.a0).toNat ∧ (lowByte s.a0).toNat ≤ 0x7E) := fun ⟨hlo, hhi⟩ => by
    unfold lowByte at hlo hhi; omega
  exact modeCommand_raises hs (by simp only [Cmd.bind_run, opByte_run, require_run, if_neg hbad])

/-- The literal escapes of DELTA are one append (R154). -/
theorem execPcLit_escape {e : Nat} (hs : s.canEncode) (hc : c = s.a0.setWidth 8) (hd : s.curSet = .delta)
    (h : (c = 0x20 ∧ e = 0) ∨ (c = 0x2C ∧ e = 2) ∨ (c = 0x2E ∧ e = 3)) :
    exec .pcLit s = .next (s.emits id [plainAppend s (escapeBits e)]) := by
  obtain ⟨rfl, rfl⟩ | ⟨rfl, rfl⟩ | ⟨rfl, rfl⟩ := h
  · exact execPcLit_emits hs hc (by decide) (by decide) (emits_literal_space (emits_litSpace_delta hd))
  · exact execPcLit_emits hs hc (by decide) (by decide) (emits_literal_comma hd)
  · exact execPcLit_emits hs hc (by decide) (by decide) (emits_literal_period hd)

end

/-- Settles O31: the class of the character and the set decide the branch, and each branch is its appends. -/
theorem literalAppendsItsCode : Obligations.LiteralAppendsItsCode := by
  refine fun s c hs hw hc => ⟨execPcLit_range hs hc, ?upper, ?lower, ?spaceNum, ?space, ?escape, ?other⟩
  case upper =>
    rintro v parts hu hv rfl
    have hclass := Preset.classOf_eq hw (c := c) (by omega) (by omega) (hv.trans (by rw [lowercase_of_upper hu]))
    exact emits_and_fits
      (execPcLit_emits hs hc (by omega) (by omega) (emits_literal_upper hu (emits_litUpper hclass)))
      (by simp [State.emitted, appendIn])
  case lower =>
    rintro v parts hlo hhi hv rfl
    have hu : ¬ uppercaseCode c := by omega
    have hd : ¬ (s.curSet = .delta ∧ (c = 0x2C ∨ c = 0x2E)) := by
      rintro ⟨-, rfl | rfl⟩ <;> exact absurd hlo (by decide)
    have hclass := Preset.classOf_eq hw (c := c) (by omega) (by omega) (hv.trans (by rw [lowercase_of_not_upper hu]))
    exact emits_and_fits
      (execPcLit_emits hs hc (by omega) (by omega) (emits_literal_other hu (by omega) hd (emits_litOther_alpha hclass)))
      (by simp [State.emitted])
  case spaceNum =>
    rintro v rfl hn hv
    exact emits_single (execPcLit_emits hs hc (by decide) (by decide)
      (emits_literal_space (emits_litSpace_num hn (Preset.placesIn_space hw hv))))
  case space =>
    rintro parts rfl hset rfl
    exact emits_and_fits
      (execPcLit_emits hs hc (by decide) (by decide) (emits_literal_space (emits_litSpace_alpha hset)))
      (by simp [State.emitted, appendIn])
  case escape => exact fun e hd he => emits_single (execPcLit_escape hs hc hd he)
  case other =>
    intro hd hlo hhi hu
    have hlower := lowercase_of_not_upper hu
    constructor
    · rintro v parts hv rfl
      have hclass := Preset.classOf_eq hw hlo hhi (hv.trans (by rw [hlower]))
      exact emits_and_fits
        (execPcLit_emits hs hc (by omega) hhi (emits_literal_other hu hlo hd (emits_litOther_sym hclass))) rfl
    · rintro v parts hv rfl
      have hclass := Preset.classOf_eq hw hlo hhi (hv.trans (by rw [hlower]))
      exact emits_and_fits
        (execPcLit_emits hs hc (by omega) hhi (emits_literal_other hu hlo hd (emits_litOther_num hclass)))
        (by simp [State.emitted, appendIn])

end Sys2Proof.Machine
end

section
/-!
The token commands without a run of IN: back-references, repeat runs, frequent substrings and single codepoints.
-/

namespace Sys2Proof.Machine

/-! ## Back-references -/

/-- The operands of a back-reference that `TK.BACKREF` refuses for its second count (R235). -/
theorem backrefSecond_eq_none {s : State} {len dist line : Nat} (h :
    ((s.lhen = false ∨ line = 0) ∧ (dist < 4 ∨ 67732 ≤ dist - 4)) ∨
      (s.lhen = true ∧ 1 ≤ line ∧
        (s.lh.length < line ∨ 67732 ≤ dist ∨ 67732 ≤ line ∨ (s.lh.getD (line - 1) []).length < dist + len))) :
    backrefSecond s len dist line = none := by
  unfold backrefSecond
  obtain ⟨hcur, hdist⟩ | ⟨hlhen, hline, hbad⟩ := h
  · rw [if_pos hcur, if_pos (by simpa only [Config.minMatch, Config.countLimit] using hdist)]
  · rw [if_neg (not_or.mpr ⟨by simp [hlhen], by omega⟩)]
    cases hl : s.lh[line - 1]? with
    | none => rfl
    | some l =>
      have hlen := (List.getElem?_eq_some_iff.mp hl).1
      rw [List.getD_eq_getElem?_getD, hl, Option.getD_some] at hbad
      exact if_pos (by simp only [Config.countLimit]; omega)

/-- The second count of a back-reference (R235). -/
theorem backrefSecond_eq_some {s : State} {len dist line x : Nat} (h :
    ((s.lhen = false ∨ line = 0) ∧ 4 ≤ dist ∧ dist - 4 < 67732 ∧ x = dist - 4) ∨
      (s.lhen = true ∧ 1 ≤ line ∧ line ≤ s.lh.length ∧ line < 67732 ∧ dist < 67732 ∧
        dist + len ≤ (s.lh.getD (line - 1) []).length ∧ x = dist)) :
    backrefSecond s len dist line = some x := by
  unfold backrefSecond
  obtain ⟨hcur, hlo, hhi, rfl⟩ | ⟨hlhen, hline, hlh, hhi, hdist, hlen, rfl⟩ := h
  · rw [if_pos hcur, if_neg (by simp only [Config.minMatch, Config.countLimit]; omega)]
    rfl
  · have hl := List.getElem?_eq_getElem (l := s.lh) (i := line - 1) (by omega)
    rw [List.getD_eq_getElem?_getD, hl, Option.getD_some] at hlen
    rw [if_neg (not_or.mpr ⟨by simp [hlhen], by omega⟩), hl]
    exact if_neg (by simp only [Config.countLimit]; omega)

theorem execTkBackref_range {s : State} (hs : s.canEncode)
    (h : (s.a0.toNat < 5 ∨ 67732 ≤ s.a0.toNat - 5) ∨
      backrefSecond s s.a0.toNat s.a1.toNat s.a2.toNat = none) :
    exec .tkBackref s = .next { s with status := .range } := by
  refine modeCommand_raises hs ?_
  simp only [Cmd.bind_run, opA0_run, opA1_run, opA2_run, look_run, require_run]
  by_cases hlen : Config.minMatch ≤ s.a0.toNat ∧ s.a0.toNat - Config.minMatch < Config.countLimit
  · have hnone := h.resolve_left (by simp only [Config.minMatch, Config.countLimit] at hlen; omega)
    simp only [if_pos hlen, hnone, raise_run]
  · simp only [if_neg hlen]

/-- The line index of a back-reference is sent with line history only (R235). -/
theorem emits_lineIndex {s : State} {c : Resting} {u l : Bool} {line : Nat} (hm : s.curSet = c ∧ s.upper = u)
    (hl : s.lhen = l) : Emits id s (if l then [⟨cntBits line, c, u⟩] else [])
      (do let lhen ← look State.lhen; if lhen then putBits (cntBits line) else pure ()) := by
  refine .look ?_
  cases l with
  | true => exact .ite_pos hl (emits_putBits _ hm)
  | false => exact .ite_neg (by simp [hl]) .pure

theorem execTkBackref_emits {s : State} {x : Nat} (hs : s.canEncode) (hlo : 5 ≤ s.a0.toNat)
    (hhi : s.a0.toNat - 5 < 67732) (hx : backrefSecond s s.a0.toNat s.a1.toNat s.a2.toNat = some x) :
    exec .tkBackref s = .next (s.emits id ([plainAppend s (switchBits s.preset s.curSet .dict),
      plainAppend s (cntBits (s.a0.toNat - 5)), plainAppend s (cntBits x)] ++
        (if s.lhen then [plainAppend s (cntBits s.a2.toNat)] else []))) := by
  refine modeCommand_emits hs <| .look <| .look <| .look <| .require ⟨hlo, hhi⟩ <| .look ?_
  rw [hx]
  exact (emits_emitSW s .dict).bind <| (emits_putBits _ (State.emitted_single_modes _ _)).bind <|
    (emits_putBits _ (State.emitted_single_modes _ _)).bind <|
      emits_lineIndex (State.emitted_single_modes _ _) (by simp only [State.emitted_lhen])

/-- Settles O40: the checks of the operands, and then three appends or four. -/
theorem backrefCommandAppendsItsCounts : Obligations.BackrefCommandAppendsItsCounts := by
  rintro s _ _ _ x parts hs rfl rfl rfl
  refine ⟨fun h => execTkBackref_range hs (.inl h),
    fun hcur hd => execTkBackref_range hs (.inr (backrefSecond_eq_none (.inl ⟨hcur, hd⟩))),
    fun hlhen hline hbad => execTkBackref_range hs (.inr (backrefSecond_eq_none (.inr ⟨hlhen, hline, hbad⟩))), ?_⟩
  rintro hlo hhi rfl hx
  refine emits_and_fits (execTkBackref_emits hs hlo hhi (backrefSecond_eq_some hx)) ?_
  cases s.lhen <;> rfl

/-! ## Repeat runs and frequent substrings -/

theorem execTkRepeat_range {s : State} (hs : s.canEncode) (h : s.a0.toNat < 4 ∨ 67732 ≤ s.a0.toNat - 4) :
    exec .tkRepeat s = .next { s with status := .range } := by
  have hbad : ¬ (4 ≤ s.a0.toNat ∧ s.a0.toNat - 4 < Config.countLimit) := by
    simp only [Config.countLimit]; omega
  exact modeCommand_raises hs (by simp only [Cmd.bind_run, opA0_run, require_run, if_neg hbad])

theorem execTkRepeat_emits {s : State} (hs : s.canEncode) (hlo : 4 ≤ s.a0.toNat) (hhi : s.a0.toNat - 4 < 67732) :
    exec .tkRepeat s = .next (s.emits id (switchAppend s .num .num ++
      [appendIn s .num (s.preset.v (s.preset.indexIn .num .rpt)), appendIn s .num (cntBits (s.a0.toNat - 4))])) := by
  have h := (emits_emitNUM s (s.preset.indexIn .num .rpt)).bind (fin := id)
    (f := fun _ => putBits (cntBits (s.a0.toNat - 4))) (emits_putBits _ (s.emitted_concat_modes _ _))
  rw [List.append_assoc] at h
  exact modeCommand_emits hs <| .look <| .require ⟨hlo, hhi⟩ <| .look h

theorem freqOf_eq (p : Preset) (i : Fin 6) : freqOf p i.val = p.freq[i] := dif_pos i.isLt

theorem freqSymbol_eq (i : Fin 6) : freqSymbol i.val = .freq i := dif_pos i.isLt

theorem execTkFreq_range {s : State} (hs : s.canEncode) (h : freqOf s.preset s.a0.toNat = none) :
    exec .tkFreq s = .next { s with status := .range } :=
  modeCommand_raises hs (by simp [h])

theorem execTkFreq_sym_emits {s : State} {i : Fin 6} {v : Fin 28} (hs : s.canEncode) (hi : s.a0.toNat = i.val)
    (hf : s.preset.freq[i] ≠ none) (hp : s.preset.places (.freq i) = [(.sym, v)]) :
    exec .tkFreq s = .next (s.emits id
      [plainAppend s (switchBits s.preset s.curSet .sym), plainAppend s (s.preset.v v)]) := by
  refine modeCommand_emits hs <| .look <| .look <| .require ?_ ?_
  · rw [hi, freqOf_eq]; exact Option.isSome_iff_ne_none.mpr hf
  · rw [hi, freqSymbol_eq, Preset.pairOf_of_places hp]
    exact (emits_emitSW s .sym).bind (emits_emitV _ (State.emitted_single_modes _ _))

theorem execTkFreq_num_emits {s : State} {i : Fin 6} {v : Fin 28} (hs : s.canEncode) (hi : s.a0.toNat = i.val)
    (hf : s.preset.freq[i] ≠ none) (hp : s.preset.places (.freq i) = [(.num, v)]) :
    exec .tkFreq s = .next (s.emits id (switchAppend s .num .num ++ [appendIn s .num (s.preset.v v)])) := by
  refine modeCommand_emits hs <| .look <| .look <| .require ?_ ?_
  · rw [hi, freqOf_eq]; exact Option.isSome_iff_ne_none.mpr hf
  · rw [hi, freqSymbol_eq, Preset.pairOf_of_places hp]
    exact emits_emitNUM s v

/-- Settles O41: each is the appends of its symbol, the repeat with its count behind it. -/
theorem repeatAndFrequentCommandsAppendTheirSymbol : Obligations.RepeatAndFrequentCommandsAppendTheirSymbol := by
  refine fun s hs => ⟨execTkRepeat_range hs, ?placed,
    fun hlo hhi => ⟨⟨_, execTkRepeat_emits hs hlo hhi⟩, ?unplaced⟩, ?absent,
    fun i hi => ⟨fun hf => execTkFreq_range hs (by rw [hi, freqOf_eq, hf]), fun hf => ⟨?sym, ?num⟩⟩⟩
  case placed =>
    rintro v parts hp hlo hhi rfl
    have hv := Preset.indexIn_of_placesIn hp
    exact emits_and_fits (hv ▸ execTkRepeat_emits hs hlo hhi) (by simp [State.emitted, appendIn])
  case unplaced =>
    intro hw hf
    have hlen := (Preset.wf_v_length hw (s.preset.indexIn .num .rpt)).2
    refine ⟨s.preset.indexIn .num .rpt, ?_⟩
    rw [execTkRepeat_emits hs hlo hhi, State.emits_of_fits ⟨hf.1, ?_⟩]
    · simp [State.emitted, appendIn]
    · have hcap := hf.2
      simp only [appendIn, appendBits_append, appendBits_switchAppend, appendBits_cons, appendBits_nil,
        List.length_append, List.length_nil]
      omega
  case absent => exact fun h => execTkFreq_range hs (dif_neg (by omega))
  case sym =>
    rintro v parts hp rfl
    exact emits_and_fits (execTkFreq_sym_emits hs hi hf hp) rfl
  case num =>
    rintro v parts hp rfl
    exact emits_and_fits (execTkFreq_num_emits hs hi hf hp) (by simp [State.emitted, appendIn])

end Sys2Proof.Machine
end

section
/-!
The token commands that escape from NUM: binary runs, hex runs, GUIDs and templates; and the single codepoint.
-/

namespace Sys2Proof.Machine

/-! ## What follows an escape -/

/-- After `EmitESC(k)` NUM is the resting set (R232). -/
theorem State.emitted_escAppends_modes (s : State) (k : Nat) :
    (s.emitted (escAppends s k)).curSet = .num ∧ (s.emitted (escAppends s k)).upper = s.upper := ⟨rfl, rfl⟩

/-- Bits sent where the modes are not changed, and then the rest. -/
theorem emits_putBits_bind {fin : State → State} {s : State} {c : Resting} {u : Bool} {bits : BitStr}
    {as : List BitAppend} {k : Unit → Cmd Unit} (hm : s.curSet = c ∧ s.upper = u)
    (hk : ∀ t : State, t.curSet = c ∧ t.upper = u → Emits fin t as (k ())) :
    Emits fin s (⟨bits, c, u⟩ :: as) (putBits bits >>= k) :=
  (emits_putBits bits hm).bind (hk _ (State.emitted_single_modes _ _))

/-- All the appends of an ESC token leave NUM the resting set (R232). -/
theorem State.emitted_escAppends_append (s : State) (k : Nat) (bs : List BitStr) :
    s.emitted (escAppends s k ++ bs.map (appendIn s .num)) =
      { s.appended (appendBits (escAppends s k ++ bs.map (appendIn s .num))) with curSet := .num } := by
  induction bs using List.reverseRecOn with
  | nil => simp [State.emitted, escAppends, appendIn]
  | append_singleton bs b =>
    rw [List.map_append, ← List.append_assoc]
    simp [State.emitted, appendIn]

/-- An ESC token, and what it leaves where all of its appends fit. -/
theorem esc_and_fits {i : Instr} {s : State} {k : Nat} (bs : List BitStr)
    (h : exec i s = .next (s.emits id (escAppends s k ++ bs.map (appendIn s .num)))) :
    exec i s = .next (s.emits id (escAppends s k ++ bs.map (appendIn s .num))) ∧
      (s.fits (appendBits (escAppends s k ++ bs.map (appendIn s .num))).length →
        exec i s = .next { s.appended (appendBits (escAppends s k ++ bs.map (appendIn s .num))) with
          curSet := .num, status := .ok }) :=
  emits_and_fits h (congrArg (fun t : State => { t with status := .ok }) (s.emitted_escAppends_append k bs))

/-! ## Binary runs -/

theorem execTkBin_range {s : State} (hs : s.canEncode)
    (h : s.a1.toNat < 1 ∨ 67732 ≤ s.a1.toNat ∨ s.ilen < s.a0.toNat + s.a1.toNat) :
    exec .tkBin s = .next { s with status := .range } := by
  have hbad : ¬ (1 ≤ s.a1.toNat ∧ s.a1.toNat < Config.countLimit ∧ s.a0.toNat + s.a1.toNat ≤ s.ilen) := by
    simp only [Config.countLimit]; omega
  exact modeCommand_raises hs
    (by simp only [Cmd.bind_run, opA0_run, opA1_run, readState_run, require_run, if_neg hbad])

theorem execTkBin_emits {s : State} (hs : s.canEncode) (hlo : 1 ≤ s.a1.toNat) (hhi : s.a1.toNat < 67732)
    (hin : s.a0.toNat + s.a1.toNat ≤ s.ilen) :
    exec .tkBin s = .next (s.emits id (escAppends s 5 ++
      [appendIn s .num (cntBits s.a1.toNat), appendIn s .num (byteBits (s.inp.slice s.a0.toNat s.a1.toNat))])) :=
  modeCommand_emits hs <| .look <| .look <| .readState <| .require ⟨hlo, hhi, hin⟩ <| (emits_emitESC s 5).bind <|
    emits_putBits_bind (s.emitted_escAppends_modes 5) fun _ ht => emits_putBits _ ht

/-! ## The single codepoint -/

theorem execTkUni1_refused {s : State} (hs : s.canEncode) (hc : s.curSet = .delta) :
    exec .tkUni1 s = .next { s with status := .refused } :=
  modeCommand_raises hs (by simp [hc])

theorem execTkUni1_range {s : State} (hs : s.canEncode) (hc : s.curSet ≠ .delta)
    (h : s.a0.toNat < 0x80 ∨ 0x10FFFF < s.a0.toNat) : exec .tkUni1 s = .next { s with status := .range } := by
  have hbad : ¬ codepointOk s.a0.toNat := by simp only [codepointOk, Config.cpMax]; omega
  exact modeCommand_raises hs
    (by simp only [Cmd.bind_run, opA0_run, readState_run, require_run, if_pos hc, if_neg hbad])

/-- A delta token, and `PREV_CP` once it fits (R205, R259). -/
theorem emits_emitDelta {s : State} {c : Resting} {u : Bool} {prev : Nat} (cp : Nat) (hm : s.curSet = c ∧ s.upper = u)
    (hp : s.prevCp = prev) :
    Emits (fun t => { t with prevCp := cp }) s [⟨deltaBits ((cp : Int) - (prev : Int)), c, u⟩] (emitDelta cp) :=
  hp ▸ .look ((emits_putBits _ hm).bind (.update _))

theorem execTkUni1_emits {s : State} (hs : s.canEncode) (hc : s.curSet ≠ .delta) (hlo : 0x80 ≤ s.a0.toNat)
    (hhi : s.a0.toNat ≤ 0x10FFFF) :
    exec .tkUni1 s = .next (s.emits (fun t => { t with prevCp := s.a0.toNat })
      [plainAppend s (s.preset.v switchIndex ++ s.preset.h .delta),
        plainAppend s (deltaBits ((s.a0.toNat : Int) - s.prevCp))]) :=
  modeCommand_emits hs <| .look <| .readState <| .require hc <|
    .require ⟨by omega, by simp only [Config.cpMax]; omega⟩ <| (emits_putBits _ ⟨rfl, rfl⟩).bind <|
      emits_emitDelta _ (State.emitted_single_modes _ _) (s.emitted_prevCp _)

/-- Settles O44: a binary run is the escape, its count and its bytes; a codepoint the switch and its delta token. -/
theorem binaryAndSingleCodepointCommands : Obligations.BinaryAndSingleCodepointCommands := by
  rintro s _ _ hs rfl rfl
  refine ⟨execTkBin_range hs, ?_, execTkUni1_refused hs, execTkUni1_range hs, ?_⟩
  · rintro parts hlo hhi hin rfl
    exact esc_and_fits [_, _] (execTkBin_emits hs hlo hhi hin)
  · rintro parts hc hlo hhi rfl
    exact emits_and_fits (execTkUni1_emits hs hc hlo hhi) rfl

end Sys2Proof.Machine
end

section
/-!
Hex runs and GUIDs: which runs of IN the commands accept, and the digits they pack.
-/

namespace Sys2Proof.Machine

/-! ## Runs of IN -/

/-- A run of IN by its bytes (R231). -/
theorem Memory.getElem?_slice (m : Memory) {a n j : Nat} (h : j < n) : (m.slice a n)[j]? = some (m.read (a + j)) := by
  induction n generalizing a j with
  | zero => omega
  | succ n ih =>
    cases j with
    | zero => rfl
    | succ j => rw [Memory.slice, List.getElem?_cons_succ, ih (by omega), Nat.add_right_comm, Nat.add_assoc]

@[simp] theorem Memory.length_slice (m : Memory) (a n : Nat) : (m.slice a n).length = n := by
  induction n generalizing a with
  | zero => rfl
  | succ n ih => rw [Memory.slice, List.length_cons, ih]

/-! ## Hex digits -/

/-- A digit reads back as its value (R234). -/
theorem hexVal_hexChar {x : Nat} (hx : x < 16) (up : HexCase) : hexVal (hexChar x up) up = some x := by
  revert x
  cases up <;> decide

/-- One byte that is no digit makes the run no hex run (R243). -/
theorem hexValues_eq_none {bs : ByteStr} {up : HexCase} {j : Nat} {b : Byte} (hj : bs[j]? = some b)
    (hb : hexVal b up = none) : hexValues bs up = none := by
  unfold hexValues
  induction bs generalizing j with
  | nil => simp at hj
  | cons a bs ih =>
    cases j with
    | zero =>
      obtain rfl : a = b := by simpa using hj
      simp [hb, allDefined]
    | succ j =>
      have h := ih (j := j) (by simpa using hj)
      cases ha : hexVal a up <;> simp [ha, allDefined, h]

theorem hexValues_digits (ns : List (BitVec 4)) (up : HexCase) :
    hexValues (ns.map (fun x => hexChar x.toNat up)) up = some (ns.map BitVec.toNat) := by
  unfold hexValues
  induction ns with
  | nil => rfl
  | cons x ns ih => simp only [List.map_cons, hexVal_hexChar x.isLt, allDefined, ih, Option.map_some]

theorem hexFields_digits (ns : List (BitVec 4)) : hexFields (ns.map BitVec.toNat) = nibbleBits ns :=
  List.flatMap_map BitVec.toNat (field 4) ns

/-! ## GUIDs -/

theorem guidHyphen_iff {k : Nat} : guidHyphen k = true ↔ k = 8 ∨ k = 13 ∨ k = 18 ∨ k = 23 := by
  simp [guidHyphen, or_assoc]

/-- A byte that may not stand at an offset of a GUID: no hyphen where there is one, else no digit of the case (R245). -/
def guidMismatch (up : HexCase) (k : Nat) (b : Byte) : Prop :=
  (guidHyphen k = true ∧ b ≠ 0x2D) ∨ (guidHyphen k = false ∧ hexVal b up = none)

/-- One byte that may not stand where it does makes the run no GUID (R246). -/
theorem guidValues_eq_none {up : HexCase} {bs : ByteStr} {k j : Nat} {b : Byte} (hj : bs[j]? = some b)
    (hb : guidMismatch up (k + j) b) : guidValues up k bs = none := by
  induction bs generalizing k j with
  | nil => simp at hj
  | cons a bs ih =>
    rw [guidValues]
    cases j with
    | zero =>
      obtain rfl : a = b := by simpa using hj
      obtain ⟨hk, ha⟩ | ⟨hk, ha⟩ := hb
      · rw [if_pos (show guidHyphen k = true from hk), if_neg ha]
      · simp [show guidHyphen k = false from hk, ha]
    | succ j =>
      have h := ih (k := k + 1) (j := j) (by simpa using hj) (by rwa [Nat.add_right_comm, Nat.add_assoc])
      rw [h]
      cases hexVal a up <;> simp

/-- A hyphen at its place has no value (R245). -/
theorem guidValues_hyphen {up : HexCase} {k : Nat} (bs : ByteStr) (hk : guidHyphen k = true) :
    guidValues up k ([0x2D] ++ bs) = guidValues up (k + 1) bs := by
  rw [List.singleton_append, guidValues, if_pos hk, if_pos rfl]

/-- A group of digits between hyphens (R245). -/
theorem guidValues_group {up : HexCase} {ns : List (BitVec 4)} {n k : Nat} (bs : ByteStr) (hn : ns.length = n)
    (hk : ∀ j, j < n → guidHyphen (k + j) = false) :
    guidValues up k (ns.map (fun x => hexChar x.toNat up) ++ bs) =
      (guidValues up (k + n) bs).map (ns.map BitVec.toNat ++ ·) := by
  subst hn
  induction ns generalizing k with
  | nil => simp
  | cons x ns ih =>
    have h := ih (k := k + 1) fun j hj => by
      rw [Nat.add_right_comm, Nat.add_assoc]; exact hk (j + 1) (by simpa using hj)
    have h0 : guidHyphen k = false := hk 0 (by simp)
    simp only [List.map_cons, List.cons_append, guidValues, h0, Bool.false_eq_true, if_false, hexVal_hexChar x.isLt, h,
      Option.map_map, List.length_cons, Nat.add_assoc, Nat.add_comm 1]
    rfl

/-- The text of a GUID has the values of its digits (R245, R246). -/
theorem guidValues_guidText (up : HexCase) {ns : List (BitVec 4)} (h : ns.length = 32) :
    guidValues up 0 (guidText up ns) = some (ns.map BitVec.toNat) := by
  have hsplit : ns = ns.take 8 ++ ((ns.drop 8).take 4 ++ ((ns.drop 12).take 4 ++
      ((ns.drop 16).take 4 ++ ns.drop 20))) := by
    rw [← List.drop_drop (i := 4) (j := 16), List.take_append_drop, ← List.drop_drop (i := 4) (j := 12),
      List.take_append_drop, ← List.drop_drop (i := 4) (j := 8), List.take_append_drop, List.take_append_drop]
  have hlast := guidValues_group (up := up) (ns := ns.drop 20) (n := 12) (k := 24) [] (by simp [h]) (by decide)
  rw [List.append_nil] at hlast
  simp only [guidText, ← List.map_take, ← List.map_drop, List.append_assoc]
  rw [guidValues_group (n := 8) _ (by simp [h]) (by decide), guidValues_hyphen _ rfl,
    guidValues_group (n := 4) _ (by simp [h]) (by decide), guidValues_hyphen _ rfl,
    guidValues_group (n := 4) _ (by simp [h]) (by decide), guidValues_hyphen _ rfl,
    guidValues_group (n := 4) _ (by simp [h]) (by decide), guidValues_hyphen _ rfl, hlast]
  conv_rhs => rw [hsplit]
  simp [guidValues]

/-! ## The commands -/

/-- The number of a case as an operand (R243, R246). -/
theorem caseOfNumber_eq {k : Nat} {up : HexCase} (h : k = match up with | .lower => 0 | .upper => 1) :
    caseOfNumber k = some up := by
  cases up <;> rw [h] <;> rfl

theorem caseOfNumber_eq_none {k : Nat} (h : 1 < k) : caseOfNumber k = none := by
  match k, h with
  | _ + 2, _ => rfl

section
variable {s : State} {up : HexCase} {ns : List (BitVec 4)}

theorem execTkHex_noCase (hs : s.canEncode) (h : 1 < s.a2.toNat) :
    exec .tkHex s = .next { s with status := .range } :=
  modeCommand_raises hs (by
    simp only [Cmd.bind_run, opA0_run, opA1_run, opA2_run, readState_run, caseOfNumber_eq_none h, raise_run])

theorem execTkHex_range (hs : s.canEncode) (hup : caseOfNumber s.a2.toNat = some up)
    (h : s.a1.toNat < 1 ∨ 67732 ≤ s.a1.toNat ∨ s.ilen < s.a0.toNat + s.a1.toNat ∨
      (∃ k, k < s.a1.toNat ∧ hexVal (s.inp.read (s.a0.toNat + k)) up = none)) :
    exec .tkHex s = .next { s with status := .range } := by
  refine modeCommand_raises hs ?_
  simp only [Cmd.bind_run, opA0_run, opA1_run, opA2_run, readState_run, hup, require_run]
  by_cases hlen : 1 ≤ s.a1.toNat ∧ s.a1.toNat < Config.countLimit ∧ s.a0.toNat + s.a1.toNat ≤ s.ilen
  · have hdigit : ∃ k, k < s.a1.toNat ∧ hexVal (s.inp.read (s.a0.toNat + k)) up = none := by
      simp only [Config.countLimit] at hlen
      obtain h | h | h | h := h
      · omega
      · omega
      · omega
      · exact h
    obtain ⟨k, hk, hb⟩ := hdigit
    simp only [if_pos hlen, runOf, hexValues_eq_none (Memory.getElem?_slice _ hk) hb, raise_run]
  · simp only [if_neg hlen]

theorem execTkHex_emits {sub : Nat} (hs : s.canEncode) (hup : caseOfNumber s.a2.toNat = some up)
    (hsub : hexSubcode up = sub) (hlo : 1 ≤ s.a1.toNat)
    (hhi : s.a1.toNat < 67732) (hin : s.a0.toNat + s.a1.toNat ≤ s.ilen)
    (hrun : s.inp.slice s.a0.toNat s.a1.toNat = ns.map (fun x => hexChar x.toNat up)) :
    exec .tkHex s = .next (s.emits id (escAppends s sub ++
      [appendIn s .num (cntBits s.a1.toNat), appendIn s .num (nibbleBits ns)])) := by
  subst hsub
  refine modeCommand_emits hs <| .look <| .look <| .look <| .readState ?_
  rw [hup]
  refine .require ⟨hlo, hhi, hin⟩ ?_
  rw [runOf, hrun, hexValues_digits]
  exact (emits_emitESC s _).bind <| emits_putBits_bind (s.emitted_escAppends_modes _) fun _ ht =>
    hexFields_digits ns ▸ emits_putBits _ ht

theorem execTkGuid_noCase (hs : s.canEncode) (h : 1 < s.a1.toNat) :
    exec .tkGuid s = .next { s with status := .range } :=
  modeCommand_raises hs (by
    simp only [Cmd.bind_run, opA0_run, opA1_run, readState_run, caseOfNumber_eq_none h, raise_run])

theorem execTkGuid_range (hs : s.canEncode) (hup : caseOfNumber s.a1.toNat = some up)
    (h : s.ilen < s.a0.toNat + 36 ∨ ∃ k, k < 36 ∧ guidMismatch up k (s.inp.read (s.a0.toNat + k))) :
    exec .tkGuid s = .next { s with status := .range } := by
  refine modeCommand_raises hs ?_
  simp only [Cmd.bind_run, opA0_run, opA1_run, readState_run, hup, require_run]
  by_cases hlen : s.a0.toNat + 36 ≤ s.ilen
  · obtain ⟨k, hk, hb⟩ := h.resolve_left (by omega)
    have hmismatch : guidMismatch up (0 + k) (s.inp.read (s.a0.toNat + k)) := by rwa [Nat.zero_add]
    have hnone := guidValues_eq_none (Memory.getElem?_slice s.inp hk) hmismatch
    simp only [if_pos hlen, runOf, hnone, raise_run]
  · simp only [if_neg hlen]

theorem execTkGuid_emits {sub : Nat} (hs : s.canEncode) (hup : caseOfNumber s.a1.toNat = some up)
    (hsub : guidSubcode up = sub) (hn : ns.length = 32)
    (hin : s.a0.toNat + 36 ≤ s.ilen) (hrun : s.inp.slice s.a0.toNat 36 = guidText up ns) :
    exec .tkGuid s =
      .next (s.emits id (escAppends s sub ++ [appendIn s .num (nibbleBits ns)])) := by
  subst hsub
  refine modeCommand_emits hs <| .look <| .look <| .readState ?_
  rw [hup]
  refine .require hin ?_
  rw [runOf, hrun, guidValues_guidText up hn]
  exact (emits_emitESC s _).bind <| hexFields_digits ns ▸ emits_putBits _ (s.emitted_escAppends_modes _)

end

/-- Settles O42: a run is refused where one byte has not its shape, and packed by the values of its digits elsewhere. -/
theorem hexAndGuidCommandsPackTheirDigits : Obligations.HexAndGuidCommandsPackTheirDigits := by
  rintro s _ _ up hs rfl rfl
  refine ⟨fun hcase => ?hex, execTkHex_noCase hs, fun hcase => ?guid, execTkGuid_noCase hs⟩
  case hex =>
    have hup := caseOfNumber_eq hcase
    refine ⟨execTkHex_range hs hup, ?_⟩
    rintro ns parts hlo hhi hin hrun rfl
    exact esc_and_fits [_, _] (execTkHex_emits hs hup (by cases up <;> rfl) hlo hhi hin hrun)
  case guid =>
    have hup := caseOfNumber_eq hcase
    refine ⟨fun h => execTkGuid_range hs hup ?_, ?_⟩
    · obtain h | ⟨k, hk, hh, hb⟩ | ⟨k, hk, h8, h13, h18, h23, hb⟩ := h
      · exact .inl h
      · exact .inr ⟨k, hk, .inl ⟨guidHyphen_iff.mpr hh, hb⟩⟩
      · refine .inr ⟨k, hk, .inr ⟨?_, hb⟩⟩
        rw [← Bool.not_eq_true, guidHyphen_iff]
        omega
    · rintro ns parts hn hin hrun rfl
      exact esc_and_fits [_] (execTkGuid_emits hs hup (by cases up <;> rfl) hn hin hrun)

end Sys2Proof.Machine
end

section
/-!
Template tokens: which runs of IN match the first positions of a template, and the placeholder values they carry.
-/

namespace Sys2Proof.Machine

/-! ## Letters -/

/-- A literal letter has no value (R248). -/
theorem letterDigit_literal {t : Byte} (h : letterWidth t = none) (b : Byte) : letterDigit t b = none := by
  have hf : t ≠ 0x66 := by rintro rfl; cases h
  have hF : t ≠ 0x46 := by rintro rfl; cases h
  rw [letterDigit, if_neg hf, if_neg hF, h]

/-- A placeholder's byte reads back as the value it was written for (R248). -/
theorem letterDigit_letterByte {t : Byte} {w x : Nat} (ht : letterWidth t = some w) (hx : x < 2 ^ w) :
    letterDigit t (letterByte t x) = some x := by
  unfold letterWidth at ht
  split at ht
  case isTrue hf =>
    cases ht
    obtain rfl | rfl := hf
    · exact hexVal_hexChar hx .lower
    · exact hexVal_hexChar hx .upper
  case isFalse =>
    split at ht
    case isTrue hr => cases ht; subst hr; revert x; decide
    case isFalse =>
      split at ht
      case isTrue hr => cases ht; subst hr; revert x; decide
      case isFalse =>
        split at ht
        case isTrue hr => cases ht; subst hr; revert x; decide
        case isFalse => cases ht

/-! ## Templates -/

/-- Bytes match the first positions of a template where each matches its letter (R248, R249). -/
theorem templateMatches_iff {ts bs : ByteStr} (h : ts.length = bs.length) :
    templateMatches ts bs = true ↔ ∀ j, j < ts.length → letterMatches (ts.getD j 0) (bs.getD j 0) = true := by
  induction ts generalizing bs with
  | nil => simp [templateMatches]
  | cons t ts ih =>
    match bs, h with
    | b :: bs, h =>
      rw [templateMatches, Bool.and_eq_true, ih (by simpa using h)]
      constructor
      · rintro ⟨h0, hs⟩ (_ | j) hj
        · exact h0
        · exact hs j (by simpa using hj)
      · exact fun hs => ⟨hs 0 (by simp), fun j hj => hs (j + 1) (by simpa using hj)⟩

/-- A run of IN matches the first positions of a template where each byte does (R249). -/
theorem templateMatches_slice {m : Memory} {t : ByteStr} {pos n : Nat} (hn : n ≤ t.length) :
    templateMatches (t.take n) (m.slice pos n) = true ↔
      ∀ j, j < n → letterMatches (t.getD j 0) (m.read (pos + j)) = true := by
  have hlen : (t.take n).length = n := List.length_take_of_le hn
  rw [templateMatches_iff (by rw [hlen, Memory.length_slice]), hlen]
  refine forall₂_congr fun j hj => ?_
  rw [List.getD_eq_getElem?_getD, List.getD_eq_getElem?_getD, List.getD_eq_getElem?_getD, List.getElem?_take_of_lt hj,
    Memory.getElem?_slice m hj, Option.getD_some]

/-- The text of a template with its placeholder values reads back as those values (R249, R250). -/
theorem templateValues_templateText {ts : ByteStr} {xs : List Nat} (h : digitsFit (placeholderWidths ts) xs = true) :
    templateValues ts (templateText ts xs) = xs := by
  induction ts generalizing xs with
  | nil =>
    cases xs with
    | nil => rfl
    | cons x xs => cases h
  | cons t ts ih =>
    rw [placeholderWidths] at h
    cases hw : letterWidth t with
    | none =>
      rw [hw] at h
      simp only [templateText, hw, templateValues, letterDigit_literal hw, ih h]
    | some w =>
      rw [hw] at h
      cases xs with
      | nil => cases h
      | cons x xs =>
        obtain ⟨hx, hxs⟩ : x < 2 ^ w ∧ digitsFit (placeholderWidths ts) xs = true := by simpa [digitsFit] using h
        simp only [templateText, hw, templateValues, letterDigit_letterByte hw hx, ih hxs]

theorem templateOf_eq (p : Preset) (i : Fin 5) : templateOf p i.val = p.tmpl[i] := dif_pos i.isLt

/-! ## The command -/

section
variable {s : State} {t : ByteStr}

theorem execTkTmpl_absent (hs : s.canEncode) (h : templateOf s.preset s.a0.toNat = none) :
    exec .tkTmpl s = .next { s with status := .range } :=
  modeCommand_raises hs (by simp only [Cmd.bind_run, opA0_run, opA1_run, opA2_run, readState_run, h, raise_run])

theorem execTkTmpl_range (hs : s.canEncode) (ht : templateOf s.preset s.a0.toNat = some t)
    (h : s.a2.toNat < 1 ∨ t.length < s.a2.toNat ∨ s.ilen < s.a1.toNat + s.a2.toNat ∨
      67732 ≤ t.length - s.a2.toNat ∨
      (∃ j, j < s.a2.toNat ∧ letterMatches (t.getD j 0) (s.inp.read (s.a1.toNat + j)) = false)) :
    exec .tkTmpl s = .next { s with status := .range } := by
  refine modeCommand_raises hs ?_
  simp only [Cmd.bind_run, opA0_run, opA1_run, opA2_run, readState_run, ht, require_run]
  by_cases hlen : 1 ≤ s.a2.toNat ∧ s.a2.toNat ≤ t.length ∧ s.a1.toNat + s.a2.toNat ≤ s.ilen ∧
      t.length - s.a2.toNat < Config.countLimit
  · have hletter : ∃ j, j < s.a2.toNat ∧ letterMatches (t.getD j 0) (s.inp.read (s.a1.toNat + j)) = false := by
      simp only [Config.countLimit] at hlen
      obtain h | h | h | h | h := h
      · omega
      · omega
      · omega
      · omega
      · exact h
    obtain ⟨j, hj, hb⟩ := hletter
    have hbad : ¬ templateMatches (t.take s.a2.toNat) (runOf s s.a1.toNat s.a2.toNat) = true := by
      rw [runOf, templateMatches_slice hlen.2.1]
      exact fun hall => by rw [hall j hj] at hb; cases hb
    simp only [if_pos hlen, if_neg hbad]
  · simp only [if_neg hlen]

theorem execTkTmpl_emits {digits : List Nat} (hs : s.canEncode) (ht : templateOf s.preset s.a0.toNat = some t)
    (hlo : 1 ≤ s.a2.toNat) (hhi : s.a2.toNat ≤ t.length) (hin : s.a1.toNat + s.a2.toNat ≤ s.ilen)
    (hrem : t.length - s.a2.toNat < 67732) (hfit : digitsFit (placeholderWidths (t.take s.a2.toNat)) digits = true)
    (hmatch : ∀ j, j < s.a2.toNat → letterMatches (t.getD j 0) (s.inp.read (s.a1.toNat + j)) = true)
    (hrun : s.inp.slice s.a1.toNat s.a2.toNat = templateText (t.take s.a2.toNat) digits) :
    exec .tkTmpl s = .next (s.emits id (escAppends s 0 ++
      [appendIn s .num (stepBits s.a0.toNat 4), appendIn s .num (cntBits (t.length - s.a2.toNat)),
        appendIn s .num (fieldsOf (placeholderWidths (t.take s.a2.toNat)) digits)])) := by
  refine modeCommand_emits hs <| .look <| .look <| .look <| .readState ?_
  rw [ht]
  refine .require ⟨hlo, hhi, hin, hrem⟩ <| .require ((templateMatches_slice hhi).mpr hmatch) ?_
  rw [runOf, hrun, templateValues_templateText hfit]
  exact (emits_emitESC s 0).bind <| emits_putBits_bind (s.emitted_escAppends_modes 0) fun _ h =>
    emits_putBits_bind h fun _ h => emits_putBits _ h

end

/-- Settles O43: the run is refused where a byte does not match its letter, and packed by its placeholders' values
elsewhere; the bound on templates is R248's. -/
theorem templateCommandPacksItsPlaceholders : Obligations.TemplateCommandPacksItsPlaceholders := by
  rintro s _ _ hs rfl rfl
  refine ⟨fun h => execTkTmpl_absent hs (dif_neg (by omega)), fun idx hidx => ?_⟩
  have hof : templateOf s.preset s.a0.toNat = s.preset.tmpl[idx] := by rw [hidx, templateOf_eq]
  refine ⟨fun h => execTkTmpl_absent hs (hof.trans h),
    fun t ht => ⟨execTkTmpl_range hs (hof.trans ht), fun hw => ?_, ?_⟩⟩
  · exact Nat.lt_of_le_of_lt (Nat.sub_le _ _) (Preset.wf_template hw ht)
  · rintro digits parts hlo hhi hin hrem hfit hmatch hrun rfl
    rw [← hidx]
    exact esc_and_fits [_, _, _] (execTkTmpl_emits hs (hof.trans ht) hlo hhi hin hrem hfit hmatch hrun)

end Sys2Proof.Machine
end

section
/-!
The copy forms of the automaton: a token that outputs bytes or halts MALFORMED, and the copies as byte strings (R236,
R241).
-/

namespace Sys2Proof.Machine

/-! ## Byte strings written -/

/-- A byte and then a byte string written are one byte string written (R67). -/
theorem State.written_written (s : State) (b : Byte) (bs : ByteStr) :
    (s.written [b]).written bs = s.written (b :: bs) := by
  simp [State.written, Memory.fill, Nat.add_assoc, Nat.add_comm 1]

/-- The first byte of a byte string has room. -/
theorem putBytes_cons_room {b : Byte} (bs : ByteStr) {s : State} (h : s.room 1) :
    putBytes (b :: bs) s = putBytes bs (s.written [b]) := by
  rw [putBytes, Cmd.bind_run, putByte_room h]

theorem putBytes_room {bs : ByteStr} {s : State} (h : s.room bs.length) : putBytes bs s = .ok () (s.written bs) := by
  induction bs generalizing s with
  | nil => rfl
  | cons b bs ih =>
    obtain ⟨ho, hr⟩ := h
    rw [List.length_cons] at hr
    have hrest : (s.written [b]).room bs.length := ⟨ho, by show s.opos + 1 + bs.length ≤ s.ocap; omega⟩
    rw [putBytes_cons_room bs ⟨ho, by omega⟩, ih hrest, State.written_written]

/-- A byte string that overflows part-way: what fits is written (R67, R128). -/
theorem putBytes_overrun {bs : ByteStr} {s : State} (h : s.overrun bs.length) :
    putBytes bs s =
      .error .overflow { s.written (bs.take (s.ocap - s.opos)) with ovf := true, need := s.ocap + 1 } := by
  induction bs generalizing s with
  | nil => exact absurd h.2.2 (Nat.not_lt.mpr h.2.1)
  | cons b bs ih =>
    obtain ⟨ho, hle, hlt⟩ := h
    rw [List.length_cons] at hlt
    obtain hfull | hroom := hle.eq_or_lt
    · rw [putBytes, Cmd.bind_run, putByte_run, if_neg (by simp [ho]), if_pos hfull.ge,
        Nat.sub_eq_zero_of_le hfull.ge, List.take_zero]
      rfl
    · have hk : s.ocap - s.opos = (s.ocap - (s.opos + 1)) + 1 := by omega
      have hrest : (s.written [b]).overrun bs.length := ⟨ho, hroom, by show s.ocap < s.opos + 1 + bs.length; omega⟩
      rw [putBytes_cons_room bs ⟨ho, hroom⟩, ih hrest, hk, List.take_succ_cons,
        ← State.written_written s b (bs.take (s.ocap - (s.opos + 1)))]
      rfl

/-! ## Tokens that output bytes or halt MALFORMED -/

section
variable {i : Instr} {body : Cmd Unit} {s t : State}

/-- The state in which a token's body runs: the form's bits are consumed (log entry 10). -/
def State.consumed (s : State) (i : Instr) : State := { s with roff := s.roff + s.headLength i }

/-- A turn of the automaton that halts nowhere (R291, R292). -/
theorem tokenForm_ok (hs : s.running) (hc : inContext (wireCtx s) i = true) (hb : body (s.consumed i) = .ok () t) :
    tokenForm i body s = .next { t with r0 := BitVec.ofNat 32 (t.opos - s.opos), status := .ok } := by
  obtain ⟨⟨hready, hmode⟩, hhalt, -⟩ := hs
  have hb : body { s with roff := s.roff + (encodeHead (wireCtx s) i).length } = .ok () t := hb
  rw [tokenForm, modeCommand_run hready hmode, endCommand_ok (t := { t with r0 := BitVec.ofNat 32 (t.opos - s.opos) })]
  simp only [Cmd.bind_run, readState_run, require_run, if_pos hc, automaton, if_pos hhalt, consumeForm_run, hb]

/-- A turn of the automaton that halts (R291, R292). -/
theorem tokenForm_error {e : Status} (hs : s.running) (hc : inContext (wireCtx s) i = true)
    (hb : body (s.consumed i) = .error e t) :
    tokenForm i body s =
      .next { t with r0 := BitVec.ofNat 32 (t.opos - s.opos), halt := Halt.ofStatus e, status := e } := by
  obtain ⟨⟨hready, hmode⟩, hhalt, -⟩ := hs
  have hb : body { s with roff := s.roff + (encodeHead (wireCtx s) i).length } = .error e t := hb
  rw [tokenForm, modeCommand_run hready hmode,
    endCommand_error (e := e) (t := { t with r0 := BitVec.ofNat 32 (t.opos - s.opos), halt := Halt.ofStatus e })]
  simp only [Cmd.bind_run, readState_run, require_run, if_pos hc, automaton, if_pos hhalt, consumeForm_run, hb]

variable {c : Resting}

/-- A token whose body sets the resting set and outputs bytes: all of them, or those that fit (R292, R294). -/
theorem tokenForm_outputs {bs : ByteStr} (hs : s.running) (hc : inContext (wireCtx s) i = true)
    (hb : body (s.consumed i) = putBytes bs { s.consumed i with curSet := c }) :
    (s.room bs.length → tokenForm i body s = .next { s.tokenDone (s.headLength i) bs with curSet := c }) ∧
      (s.overrun bs.length → tokenForm i body s = .next { s.cutShort (s.headLength i) bs with curSet := c }) := by
  constructor
  · intro hroom
    rw [tokenForm_ok hs hc (hb.trans (putBytes_room hroom)), State.written_opos]
    simp only [State.consumed, Nat.add_sub_cancel_left]
    rfl
  · intro hover
    have hlen : (bs.take (s.ocap - s.opos)).length = s.ocap - s.opos := List.length_take_of_le (by omega)
    have hopos : s.opos + (bs.take (s.ocap - s.opos)).length = s.ocap := by omega
    rw [tokenForm_error hs hc (hb.trans (putBytes_overrun hover))]
    simp only [State.consumed, State.written, State.cutShort, hopos]
    rfl

/-- A token that halts MALFORMED before it outputs anything (R345). -/
theorem tokenForm_malformed (hs : s.running) (hc : inContext (wireCtx s) i = true)
    (hb : body (s.consumed i) = .error .malformed { s.consumed i with curSet := c }) :
    tokenForm i body s = .next { s.malformedAt (s.headLength i) with curSet := c } := by
  rw [tokenForm_error hs hc hb]
  simp only [State.consumed, Nat.sub_self]
  rfl

end

/-! ## The copies -/

/-- What a copy reads after a byte is copied: the bytes it read before, one further on (R72, R236). -/
theorem read_written_copy {s : State} {dist : Nat} (hd : 1 ≤ dist) (hw : s.out.wf = true) (hle : dist ≤ s.opos)
    (k : Nat) :
    (s.written [s.out.read (s.opos - dist)]).out.read (s.opos + 1 - dist + k % dist) =
      s.out.read (s.opos - dist + (k + 1) % dist) := by
  have hlt := Nat.mod_lt k hd
  rw [← Nat.mod_add_mod k dist 1]
  refine (Memory.read_write hw s.opos (s.out.read (s.opos - dist)) _).trans ?_
  by_cases hlast : k % dist + 1 = dist
  · rw [if_pos (by omega), hlast, Nat.mod_self, Nat.add_zero]
  · have hnext : (k % dist + 1) % dist = k % dist + 1 := Nat.mod_eq_of_lt (by omega)
    rw [if_neg (by omega), hnext]
    congr 1
    omega

/-- A copy in the current string is the bytes it reads, which repeat where the distance is below the length (R72,
R236). -/
theorem copyBack_eq_putBytes {dist : Nat} (hd : 1 ≤ dist) (n : Nat) {s : State} (hw : s.out.wf = true)
    (hle : dist ≤ s.opos) :
    copyBack dist n s = putBytes ((List.range n).map fun k => s.out.read (s.opos - dist + k % dist)) s := by
  induction n generalizing s with
  | zero => rfl
  | succ n ih =>
    rw [List.range_succ_eq_map, List.map_cons, List.map_map, copyBack, Cmd.bind_run, look_run]
    simp only [Nat.zero_mod, Nat.add_zero]
    by_cases hroom : s.room 1
    · have hrest := ih (s := s.written [s.out.read (s.opos - dist)]) (Memory.write_wf hw) (Nat.le_succ_of_le hle)
      rw [putBytes_cons_room _ hroom, Cmd.bind_run, putByte_room hroom]
      refine hrest.trans (congrArg (fun bs => putBytes bs _) (List.map_congr_left fun k _ => ?_))
      exact read_written_copy hd hw hle k
    · obtain ⟨t, ht, -⟩ := putByte_full (b := s.out.read (s.opos - dist)) hroom
      rw [putBytes, Cmd.bind_run, Cmd.bind_run, ht]

theorem putRepeated_eq_putBytes (b : Byte) (n : Nat) : putRepeated b n = putBytes (List.replicate n b) := by
  induction n with
  | zero => rfl
  | succ n ih => rw [putRepeated, ih, List.replicate_succ, putBytes]

section
variable {s : State} {len x k : Nat}

theorem copyRef_current (hw : s.out.wf = true) (h : x + 4 ≤ s.opos) :
    copyRef len x 0 s = putBytes ((List.range len).map fun k => s.out.read (s.opos - (x + 4) + k % (x + 4))) s := by
  rw [copyRef, Cmd.bind_run, readState_run]
  dsimp only
  rw [if_pos rfl, Cmd.bind_run, require_run, if_pos (show x + (Config.minMatch - 1) ≤ s.opos from h)]
  exact copyBack_eq_putBytes (show 1 ≤ x + 4 by omega) len hw h

theorem copyRef_current_malformed (h : s.opos < x + 4) : copyRef len x 0 s = .error .malformed s := by
  rw [copyRef, Cmd.bind_run, readState_run]
  dsimp only
  rw [if_pos rfl, Cmd.bind_run, require_run,
    if_neg (show ¬ x + (Config.minMatch - 1) ≤ s.opos from Nat.not_le.mpr h)]

theorem copyRef_line {line : ByteStr} (hl : s.lh[k]? = some line) (h : x + len ≤ line.length) :
    copyRef len x (k + 1) s = putBytes ((line.drop x).take len) s := by
  rw [copyRef, Cmd.bind_run, readState_run]
  dsimp only
  rw [if_neg (Nat.succ_ne_zero k), Nat.add_sub_cancel, hl]
  dsimp only
  rw [Cmd.bind_run, require_run, if_pos h]

theorem copyRef_line_malformed {line : ByteStr} (hl : s.lh[k]? = some line) (h : line.length < x + len) :
    copyRef len x (k + 1) s = .error .malformed s := by
  rw [copyRef, Cmd.bind_run, readState_run]
  dsimp only
  rw [if_neg (Nat.succ_ne_zero k), Nat.add_sub_cancel, hl]
  dsimp only
  rw [Cmd.bind_run, require_run, if_neg (by omega)]

theorem copyRef_noLine (hl : s.lh.length ≤ k) : copyRef len x (k + 1) s = .error .malformed s := by
  rw [copyRef, Cmd.bind_run, readState_run]
  dsimp only
  rw [if_neg (Nat.succ_ne_zero k), Nat.add_sub_cancel, List.getElem?_eq_none hl]
  rfl

end

theorem inNum_repeatLast {s : State} (r : Nat) (h : s.opos ≠ 0) :
    inNum (repeatLast r) s =
      putBytes (List.replicate r (s.out.read (s.opos - 1))) { s with curSet := .num } := by
  rw [inNum, Cmd.bind_run, enterSet_num_run]
  dsimp only
  rw [repeatLast, Cmd.bind_run, readState_run]
  dsimp only
  rw [Cmd.bind_run, require_run, if_pos h, putRepeated_eq_putBytes]

theorem inNum_repeatLast_malformed {s : State} (r : Nat) (h : s.opos = 0) :
    inNum (repeatLast r) s = .error .malformed { s with curSet := .num } := by
  rw [inNum, Cmd.bind_run, enterSet_num_run]
  dsimp only
  rw [repeatLast, Cmd.bind_run, readState_run]
  dsimp only
  rw [Cmd.bind_run, require_run, if_neg (by simp [h])]

/-! ## The forms -/

/-- A form without a payload is its head (R94). -/
theorem State.formLength_eq_headLength {s : State} {i : Instr} (h : encodePayload (wireCtx s) i = []) :
    s.formLength i = s.headLength i := by
  rw [State.formLength, encode, h, List.append_nil, State.headLength]

section
variable {i : Instr} {s : State} {len x line : Nat}

/-- A back-reference of either kind that copies bytes (R236). -/
theorem execBackref_outputs {bs : ByteStr} (hs : s.running) (hc : inContext (wireCtx s) i = true)
    (hi : exec i s = tokenForm i (copyRef len x line) s) (hp : encodePayload (wireCtx s) i = [])
    (hb : copyRef len x line (s.consumed i) = putBytes bs (s.consumed i)) (hlen : bs.length = len) :
    (s.room len → exec i s = .next (s.tokenDone (s.formLength i) bs)) ∧
      (s.overrun len → exec i s = .next (s.cutShort (s.formLength i) bs)) := by
  subst hlen
  rw [hi, State.formLength_eq_headLength hp]
  exact tokenForm_outputs hs hc hb

/-- A back-reference of either kind that refers to nothing (R236, R345). -/
theorem execBackref_malformed (hs : s.running) (hc : inContext (wireCtx s) i = true)
    (hi : exec i s = tokenForm i (copyRef len x line) s) (hp : encodePayload (wireCtx s) i = [])
    (hb : copyRef len x line (s.consumed i) = .error .malformed (s.consumed i)) :
    exec i s = .next (s.malformedAt (s.formLength i)) := by
  rw [hi, State.formLength_eq_headLength hp]
  exact tokenForm_malformed hs hc hb

/-- A back-reference in the current string, of either kind. -/
theorem execBackref_current {bs : ByteStr} (hs : s.running) (hc : inContext (wireCtx s) i = true)
    (hi : exec i s = tokenForm i (copyRef len x 0) s) (hp : encodePayload (wireCtx s) i = [])
    (hbs : bs = (List.range len).map (fun k => s.out.read (s.opos - (x + 4) + k % (x + 4)))) :
    (s.out.wf = true → x + 4 ≤ s.opos →
        (s.room len → exec i s = .next (s.tokenDone (s.formLength i) bs)) ∧
        (s.overrun len → exec i s = .next (s.cutShort (s.formLength i) bs))) ∧
      (s.opos < x + 4 → exec i s = .next (s.malformedAt (s.formLength i))) := by
  subst hbs
  exact ⟨fun hw hle => execBackref_outputs hs hc hi hp (copyRef_current (s := s.consumed i) hw hle) (by simp),
    fun hlt => execBackref_malformed hs hc hi hp (copyRef_current_malformed (s := s.consumed i) hlt)⟩

/-- A repeat run copies the last byte, of which there is one (R241). -/
theorem execRpt_outputs {r : Nat} {bs : ByteStr} (hs : s.running)
    (hbs : bs = List.replicate r (s.out.read (s.opos - 1)))
    (h : s.opos ≠ 0) :
    (s.room r → exec (.rpt r) s = .next (s.numDone (.rpt r) bs)) ∧
      (s.overrun r → exec (.rpt r) s = .next { s.cutShort (s.formLength (.rpt r)) bs with curSet := .num }) := by
  obtain rfl : bs.length = r := by rw [hbs, List.length_replicate]
  have hn : s.formLength (.rpt bs.length) = s.headLength (.rpt bs.length) := State.formLength_eq_headLength rfl
  rw [State.numDone, hn]
  refine tokenForm_outputs (body := inNum (repeatLast bs.length)) hs rfl ?_
  exact (inNum_repeatLast (s := s.consumed (.rpt bs.length)) _ h).trans (congrArg (putBytes · _) hbs.symm)

theorem execRpt_malformed (r : Nat) (hs : s.running) (h : s.opos = 0) :
    exec (.rpt r) s = .next { s.malformedAt (s.formLength (.rpt r)) with curSet := .num } := by
  rw [State.formLength_eq_headLength rfl]
  exact tokenForm_malformed (body := inNum (repeatLast r)) hs rfl
    (inNum_repeatLast_malformed (s := s.consumed (.rpt r)) r h)

end

/-- Settles O53: each copy is a byte string, written whole or as far as it fits. -/
theorem copyFormsRepeatEarlierBytes : Obligations.CopyFormsRepeatEarlierBytes := by
  refine fun s hs => ⟨?current, ?currentLine, ?line,
    fun r bs hbs => ⟨execRpt_outputs hs hbs, execRpt_malformed r hs⟩⟩
  case current =>
    rintro len dist _ bs hl rfl hd hbs
    obtain ⟨x, rfl⟩ := Nat.exists_eq_add_of_le' hd
    exact execBackref_current hs (by simp [inContext, hl]) rfl rfl hbs
  case currentLine =>
    rintro len x _ bs hl rfl hbs
    exact execBackref_current hs (by simp [inContext, hl]) rfl rfl hbs
  case line =>
    rintro len x k _ hl rfl
    have hc : inContext (wireCtx s) (.backref1 len x (k + 1)) = true := by simp [inContext, hl]
    refine ⟨?_, fun hk => execBackref_malformed hs hc rfl rfl (copyRef_noLine hk)⟩
    rintro line bs hline rfl
    refine ⟨fun hin => ?_, fun hout => execBackref_malformed hs hc rfl rfl (copyRef_line_malformed hline hout)⟩
    exact execBackref_outputs hs hc rfl rfl (copyRef_line hline hin)
      (by rw [List.length_take, List.length_drop]; omega)

end Sys2Proof.Machine
end

section
/-!
The commands of the bit-stream unit: the left-aligned code as its high bits, the bits a reader gets as a number, and
what each command does with them (R121 to R129).
-/

namespace Sys2Proof.Machine

/-! ## The append -/

/-- Bit `k` of a field, counted from its first, is the digit of weight `2^(n-1-k)` (R7). -/
theorem field_eq_map (n v : Nat) : field n v = (List.range n).map fun k => v.testBit (n - 1 - k) := by
  induction n with
  | zero => rfl
  | succ n ih =>
    rw [field, ih, List.range_succ_eq_map, List.map_cons, List.map_map]
    congr 1
    exact List.map_congr_left fun k _ => congrArg v.testBit (by omega)

/-- A left-aligned code is its high bits, `A0[7]` first (R122). -/
theorem leftAligned_eq_map {n : Nat} (w : Word) (hn : n ≤ 8) :
    leftAligned w n = (List.range n).map fun k => w.getLsbD (7 - k) := by
  rw [leftAligned, field_eq_map, ← List.map_take, List.take_range, Nat.min_eq_left hn]
  refine List.map_congr_left fun k _ => ?_
  have hlow : 8 - 1 - k < 8 := by omega
  rw [BitVec.testBit_toNat, lowByte, BitVec.getLsbD_setWidth, decide_eq_true hlow, Bool.true_and]

theorem execBsAppend_range {s : State} (hs : s.canEncode) (h : 8 < s.a1.toNat) :
    exec .bsAppend s = .next { s with status := .range } :=
  modeCommand_raises hs
    (by simp only [Cmd.bind_run, look_run, opA1_run, require_run, if_neg (Nat.not_le.mpr h)])

theorem execBsAppend_emits {s : State} (hs : s.canEncode) (h : s.a1.toNat ≤ 8) :
    exec .bsAppend s = .next (s.emits (fun t => { t with r0 := BitVec.ofNat 32 t.woff })
      [plainAppend s (leftAligned s.a0 s.a1.toNat)]) :=
  modeCommand_emits hs <| .look <| .look <| .require h <|
    emits_append (a := plainAppend s (leftAligned s.a0 s.a1.toNat)) rfl

/-- Settles O25: the checks, and then one append of the code's high bits, made or rejected. -/
theorem bsAppendAppendsTheHighBits : Obligations.BsAppendAppendsTheHighBits := by
  rintro s _ bits rfl hbits
  refine ⟨exec_refused rfl, fun hs => ⟨execBsAppend_range hs, fun hn => ?_⟩⟩
  have hlen : bits.length = s.a1.toNat := by rw [hbits, List.length_map, List.length_range]
  rw [execBsAppend_emits hs hn, leftAligned_eq_map s.a0 hn, ← hbits, ← hlen]
  exact ⟨fun hf => by rw [State.emits_cons_fits (a := plainAppend s bits) [] hf]; rfl,
    fun hf => by rw [State.emits_cons_unfit (a := plainAppend s bits) [] hf]; rfl⟩

/-! ## The end of a command of DEC mode -/

/-- A command of DEC mode that raises nothing and answers a number in `R0` (R340, R348). -/
theorem decCommand_answers {body : Cmd Unit} {s t : State} {v : Nat} (hs : s.canDecode)
    (h : body s = .ok () { t with r0 := BitVec.ofNat 32 v }) :
    modeCommand .dec body s = .next { t with r0 := BitVec.ofNat 32 v, status := .ok } := by
  rw [modeCommand_run hs.1 hs.2, endCommand_ok h]

/-- A command of DEC mode whose pseudocode raises a status (R341, R348). -/
theorem decCommand_error {body : Cmd Unit} {s t : State} {e : Status} (hs : s.canDecode) (h : body s = .error e t) :
    modeCommand .dec body s = .next { t with status := e } := by
  rw [modeCommand_run hs.1 hs.2, endCommand_error h]

/-! ## The readers -/

/-- The next bits are the bit at `ROFF`, and then those a reader gets after it (R124). -/
theorem State.nextBits_succ (s : State) (n : Nat) :
    s.nextBits (n + 1) = paddedBit s s.roff :: (s.afterRead 1).nextBits n := by
  rw [State.nextBits, List.range_succ_eq_map, List.map_cons, List.map_map]
  congr 1
  refine List.map_congr_left fun k _ => ?_
  show paddedBit s (s.roff + (k + 1)) = paddedBit s (s.roff + 1 + k)
  rw [Nat.add_assoc, Nat.add_comm 1]

/-- Each bit read doubles the number read so far and is added to it, and all are consumed (R124, R126). -/
theorem getBitsFrom_run (acc n : Nat) (s : State) :
    getBitsFrom acc n s = .ok ((s.nextBits n).foldl (fun v b => 2 * v + b.toNat) acc) (s.afterRead n) := by
  induction n generalizing acc s with
  | zero => rw [s.afterRead_zero]; rfl
  | succ n ih =>
    rw [getBitsFrom, Cmd.bind_run, getBit_run, State.nextBits_succ, List.foldl_cons, Nat.add_comm n 1,
      ← State.afterRead_afterRead]
    exact ih _ _

/-- `GetBits(n)` answers the number that the next bits spell, the first most significant (R126). -/
theorem getBits_run (n : Nat) (s : State) : getBits n s = .ok (ofBits (s.nextBits n)) (s.afterRead n) :=
  getBitsFrom_run 0 n s

/-- One bit spells its own value. -/
theorem ofBits_singleton (b : Bool) : ofBits [b] = b.toNat := by
  cases b <;> rfl

theorem execBsRdbit_ok {s : State} (hs : s.canDecode) :
    exec .bsRdbit s =
      .next { s.afterRead 1 with r0 := BitVec.ofNat 32 (ofBits (s.nextBits 1)), status := .ok } := by
  have hbit : s.nextBits 1 = [paddedBit s s.roff] := s.nextBits_succ 0
  rw [hbit, ofBits_singleton]
  exact decCommand_answers hs (by simp only [Cmd.bind_run, getBit_run, setR0_run])

/-- `Peek8()` answers the number that the next 8 bits spell (R127). -/
theorem peek8_eq_ofBits (s : State) : peek8 s = ofBits (s.nextBits 8) := rfl

theorem execBsRd8_ok {s : State} (hs : s.canDecode) :
    exec .bsRd8 s = .next { s with r0 := BitVec.ofNat 32 (ofBits (s.nextBits 8)), status := .ok } :=
  decCommand_answers hs (by simp only [Cmd.bind_run, look_run, peek8_eq_ofBits, setR0_run])

theorem execBsRdint_ok {s : State} (hs : s.canDecode) (h : s.a0.toNat ≤ 32) :
    exec .bsRdint s =
      .next { s.afterRead s.a0.toNat with
        r0 := BitVec.ofNat 32 (ofBits (s.nextBits s.a0.toNat)), status := .ok } :=
  decCommand_answers hs (by simp only [Cmd.bind_run, opA0_run, require_run, if_pos h, getBits_run, setR0_run])

theorem execBsRdint_range {s : State} (hs : s.canDecode) (h : 32 < s.a0.toNat) :
    exec .bsRdint s = .next { s with status := .range } :=
  decCommand_error hs (by simp only [Cmd.bind_run, opA0_run, require_run, if_neg (Nat.not_le.mpr h)])

/-- Settles O26: each reader answers the number its next bits spell, and all but the peek consume them. -/
theorem bitReadersReadInStreamOrder : Obligations.BitReadersReadInStreamOrder := fun _ =>
  ⟨fun hs => ⟨execBsRdbit_ok hs, execBsRd8_ok hs, execBsRdint_ok hs, execBsRdint_range hs⟩,
    fun hs => ⟨exec_refused rfl hs, exec_refused rfl hs, exec_refused rfl hs⟩⟩

/-! ## The byte writer -/

theorem execOutPutb_room {s : State} (hs : s.canDecode) (h : s.room 1) :
    exec .outPutb s =
      .next { s.written [lowByte s.a0] with r0 := BitVec.ofNat 32 (s.opos + 1), status := .ok } :=
  decCommand_answers hs (by
    simp only [Cmd.bind_run, opByte_run, putByte_room h, look_run, State.written_opos, List.length_singleton,
      setR0_run])

theorem execOutPutb_full {s : State} (hs : s.canDecode) (h : ¬ s.room 1) :
    exec .outPutb s = .next s.byteRejected := by
  obtain ⟨t, ht, hrej⟩ := putByte_full (b := lowByte s.a0) h
  rw [← hrej]
  exact decCommand_error hs (by simp only [Cmd.bind_run, opByte_run, ht])

/-- Settles O27: the byte has room and is written, or none is. -/
theorem outPutbWritesOneByte : Obligations.OutPutbWritesOneByte := fun _ =>
  ⟨exec_refused rfl, fun hs => ⟨execOutPutb_room hs, execOutPutb_full hs⟩⟩

end Sys2Proof.Machine
end

section
/-!
The readers of codes: the bits that stand at `ROFF`, and what `ReadH` and `ReadV` answer for them (R141, R163, R164).
-/

namespace Sys2Proof.Machine

/-! ## The bits at ROFF -/

/-- The bits a reader gets from `ROFF` on, padding included, start with a bit string (R124). -/
def State.spells (s : State) (bits : BitStr) : Prop := s.nextBits bits.length = bits

theorem State.spells_nil (s : State) : s.spells [] := rfl

theorem State.spells_cons {s : State} {b : Bool} {bits : BitStr} :
    s.spells (b :: bits) ↔ paddedBit s s.roff = b ∧ (s.afterRead 1).spells bits := by
  rw [State.spells, List.length_cons, State.nextBits_succ, List.cons.injEq]
  rfl

theorem State.spells_append {s : State} {a b : BitStr} :
    s.spells (a ++ b) ↔ s.spells a ∧ (s.afterRead a.length).spells b := by
  induction a generalizing s with
  | nil => simp [State.spells_nil, State.afterRead_zero]
  | cons x a ih =>
    rw [List.cons_append, State.spells_cons, ih, State.spells_cons, State.afterRead_afterRead, List.length_cons,
      Nat.add_comm 1, and_assoc]

theorem State.nextBits_length (s : State) (n : Nat) : (s.nextBits n).length = n := by
  simp [State.nextBits]

/-- Fewer of the next bits are the first of them. -/
theorem State.spells_of_prefix {s : State} {w : BitStr} {n : Nat} (h : w <+: s.nextBits n) : s.spells w := by
  obtain ⟨v, hv⟩ := h
  have hlen := congrArg List.length hv
  rw [List.length_append, State.nextBits_length] at hlen
  have hall : s.spells (w ++ v) := by rw [State.spells, List.length_append, hlen, hv]
  exact (State.spells_append.mp hall).1

/-! ## Prefix-free codes -/

/-- No code of a list of named codes starts with another (R141 (a), (b)). -/
def PrefixFree {α : Type} (codes : List (α × BitStr)) : Prop := ∀ q ∈ codes, ∀ r ∈ codes, q.2 <+: r.2 → q = r

section
variable {α : Type} {codes : List (α × BitStr)} {x : α} {w u : BitStr}

theorem findCode_eq_some (hfree : PrefixFree codes) (hx : (x, w) ∈ codes) : findCode codes w = some x := by
  obtain ⟨q, hq⟩ : ∃ q, codes.find? (fun q => q.2 == w) = some q :=
    Option.isSome_iff_exists.mp (List.find?_isSome.mpr ⟨_, hx, beq_self_eq_true w⟩)
  have hw : q.2 = w := by simpa using List.find?_some hq
  rw [findCode, hq, hfree q (List.mem_of_find?_eq_some hq) _ hx (hw ▸ List.prefix_refl w)]
  rfl

theorem exists_of_findCode (h : findCode codes w = some x) : (x, w) ∈ codes := by
  obtain ⟨q, hq, rfl⟩ := Option.map_eq_some_iff.mp h
  obtain rfl : q.2 = w := by simpa using List.find?_some hq
  exact List.mem_of_find?_eq_some hq

/-- A proper first part of a code is no code. -/
theorem findCode_proper_prefix (hfree : PrefixFree codes) (hx : (x, w) ∈ codes) (hu : u <+: w) (hne : u ≠ w) :
    findCode codes u = none := by
  refine Option.eq_none_iff_forall_ne_some.mpr fun y hy => hne ?_
  exact congrArg Prod.snd (hfree _ (exists_of_findCode hy) _ hx hu)

end

theorem codesPrefixFree_iff (l : List BitStr) : codesPrefixFree l = true ↔ l.Pairwise (codesApart · · = true) := by
  induction l with
  | nil => simp [codesPrefixFree]
  | cons a l ih => simp [codesPrefixFree, ih]

/-- In a list of codes apart no code starts with one at another index. -/
theorem eq_of_prefix {l : List BitStr} (h : codesPrefixFree l = true) {i j : Nat} (hi : i < l.length)
    (hj : j < l.length) (hpre : l[i] <+: l[j]) : i = j := by
  rw [codesPrefixFree_iff, List.pairwise_iff_getElem] at h
  obtain hlt | heq | hgt := Nat.lt_trichotomy i j
  · have hapart := h i j hi hj hlt
    rw [codesApart, List.isPrefixOf_iff_prefix.mpr hpre] at hapart
    simp at hapart
  · exact heq
  · have hapart := h j i hj hi hgt
    rw [codesApart, List.isPrefixOf_iff_prefix.mpr hpre] at hapart
    simp at hapart

theorem SetId.ofNumber_number (h : SetId) : SetId.ofNumber h.number = h := by
  cases h <;> rfl

theorem mem_horizontalCodes {p : Preset} {q : SetId × BitStr} : q ∈ horizontalCodes p ↔ q.2 = p.h q.1 := by
  obtain ⟨h, w⟩ := q
  cases h <;> simp [horizontalCodes]

theorem mem_verticalCodes {p : Preset} {q : Fin 28 × BitStr} : q ∈ verticalCodes p ↔ q.2 = p.v q.1 := by
  obtain ⟨v, w⟩ := q
  simp [verticalCodes, indices, eq_comm]

theorem horizontalCodes_prefixFree {p : Preset} (hw : p.wf = true) : PrefixFree (horizontalCodes p) := by
  rintro ⟨a, u⟩ hu ⟨b, w⟩ hv hpre
  obtain rfl : u = p.h a := mem_horizontalCodes.mp hu
  obtain rfl : w = p.h b := mem_horizontalCodes.mp hv
  simp only [Preset.wf, Preset.wfHorizontal, Bool.and_eq_true] at hw
  obtain ⟨⟨⟨⟨⟨-, hfree⟩, -⟩, -⟩, -⟩, -⟩ := hw
  have hab := eq_of_prefix hfree (i := a.number.val) (j := b.number.val) (by simp) (by simp)
    (by simpa [Preset.h] using hpre)
  rw [← SetId.ofNumber_number a, Fin.ext hab, SetId.ofNumber_number]

theorem verticalCodes_prefixFree {p : Preset} (hw : p.wf = true) : PrefixFree (verticalCodes p) := by
  rintro ⟨a, u⟩ hu ⟨b, w⟩ hv hpre
  obtain rfl : u = p.v a := mem_verticalCodes.mp hu
  obtain rfl : w = p.v b := mem_verticalCodes.mp hv
  simp only [Preset.wf, Preset.wfVertical, Bool.and_eq_true] at hw
  obtain ⟨⟨⟨⟨-, -, hfree⟩, -⟩, -⟩, -⟩ := hw
  have hab := eq_of_prefix hfree (i := a.val) (j := b.val) (by simp) (by simp) (by simpa [Preset.v] using hpre)
  rw [Fin.ext hab]

/-- A horizontal code has 1 to 8 bits (R141 (e), R140). -/
theorem Preset.wf_h_length {p : Preset} (hw : p.wf = true) (h : SetId) : 1 ≤ (p.h h).length ∧ (p.h h).length ≤ 8 := by
  refine ⟨?_, Preset.wf_short hw h⟩
  simp only [Preset.wf, Preset.wfHorizontal, Bool.and_eq_true, List.all_eq_true] at hw
  obtain ⟨⟨⟨⟨⟨hne, -⟩, -⟩, -⟩, -⟩, -⟩ := hw
  have hpos := hne (p.h h) (by simp [Preset.h])
  exact List.length_pos_iff.mpr (by simpa using hpos)

/-! ## The loop of ReadH and ReadV -/

section
variable {α : Type} {codes : List (α × BitStr)} {x : α}

/-- The loop ends at the first code that the bits spell (R163, R164). -/
theorem readCode_found {w : BitStr} {n : Nat} {acc : BitStr} {s : State} (hne : w ≠ []) (hn : w.length ≤ n)
    (hs : s.spells w) (hx : findCode codes (acc ++ w) = some x)
    (hnone : ∀ u, u <+: w → u ≠ w → u ≠ [] → findCode codes (acc ++ u) = none) :
    readCode codes acc n s = .ok x (s.afterRead w.length) := by
  induction w generalizing n acc s with
  | nil => exact absurd rfl hne
  | cons b w ih =>
    obtain ⟨n, rfl⟩ : ∃ m, n = m + 1 := ⟨n - 1, by rw [List.length_cons] at hn; omega⟩
    obtain ⟨rfl, hrest⟩ := State.spells_cons.mp hs
    rw [readCode, Cmd.bind_run, getBit_run]
    dsimp only
    cases w with
    | nil => rw [hx]; rfl
    | cons c w =>
      have hfirst : findCode codes (acc ++ [paddedBit s s.roff]) = none :=
        hnone _ ⟨c :: w, rfl⟩ (by simp) (by simp)
      rw [hfirst]
      dsimp only
      rw [ih (by simp) (Nat.le_of_succ_le_succ hn) hrest (by simpa using hx), State.afterRead_afterRead, Nat.add_comm 1]
      · rfl
      · intro u hu hne hnil
        have := hnone (paddedBit s s.roff :: u) (List.cons_prefix_cons.mpr ⟨rfl, hu⟩) (by simpa using hne) (by simp)
        simpa using this

/-- The loop reads all its bits where none of their first parts is a code (R163, R164). -/
theorem readCode_malformed {n : Nat} {acc : BitStr} {s : State}
    (hnone : ∀ u, u <+: s.nextBits n → u ≠ [] → findCode codes (acc ++ u) = none) :
    readCode codes acc n s = .error .malformed (s.afterRead n) := by
  induction n generalizing acc s with
  | zero => rw [s.afterRead_zero]; rfl
  | succ n ih =>
    rw [State.nextBits_succ] at hnone
    rw [readCode, Cmd.bind_run, getBit_run]
    dsimp only
    have hfirst : findCode codes (acc ++ [paddedBit s s.roff]) = none :=
      hnone _ (List.cons_prefix_cons.mpr ⟨rfl, List.nil_prefix⟩) (by simp)
    rw [hfirst]
    dsimp only
    rw [ih, State.afterRead_afterRead, Nat.add_comm 1]
    intro u hu hnil
    have := hnone (paddedBit s s.roff :: u) (List.cons_prefix_cons.mpr ⟨rfl, hu⟩) (by simp)
    simpa using this

/-- A code of a list of codes apart that stands at `ROFF` is read. -/
theorem readCode_spelled {w : BitStr} {n : Nat} {s : State} (hfree : PrefixFree codes) (hx : (x, w) ∈ codes)
    (hne : w ≠ []) (hn : w.length ≤ n) (hs : s.spells w) :
    readCode codes [] n s = .ok x (s.afterRead w.length) :=
  readCode_found hne hn hs (findCode_eq_some hfree hx) fun _ hu hproper _ => findCode_proper_prefix hfree hx hu hproper

/-- Bits that start with no code of at most `n` bits are malformed. -/
theorem readCode_unspelled {n : Nat} {s : State} (h : ∀ x w, (x, w) ∈ codes → w.length ≤ n → ¬ s.spells w) :
    readCode codes [] n s = .error .malformed (s.afterRead n) := by
  refine readCode_malformed fun u hu _ => Option.eq_none_iff_forall_ne_some.mpr fun x hx => ?_
  exact h x u (exists_of_findCode hx) (by simpa [State.nextBits_length] using hu.length_le) (State.spells_of_prefix hu)

end

section
variable {s : State}

/-- `ReadV()` answers the index of the code at `ROFF` (R164). -/
theorem readV_run {v : Fin 28} (hw : s.preset.wf = true) (h : s.spells (s.preset.v v)) :
    readV s = .ok v (s.afterRead (s.preset.v v).length) := by
  obtain ⟨hlo, hhi⟩ := Preset.wf_v_length hw v
  exact readCode_spelled (verticalCodes_prefixFree hw) (mem_verticalCodes.mpr rfl)
    (List.length_pos_iff.mp (by omega)) hhi h

/-- `ReadH()` answers the set of the code at `ROFF` (R163). -/
theorem readH_run {h : SetId} (hw : s.preset.wf = true) (hs : s.spells (s.preset.h h)) :
    readH s = .ok h (s.afterRead (s.preset.h h).length) := by
  obtain ⟨hlo, hhi⟩ := Preset.wf_h_length hw h
  exact readCode_spelled (horizontalCodes_prefixFree hw) (mem_horizontalCodes.mpr rfl)
    (List.length_pos_iff.mp hlo) hhi hs

theorem execPcRdv_spelled {v : Fin 28} (hs : s.canDecode) (hw : s.preset.wf = true) (h : s.spells (s.preset.v v)) :
    exec .pcRdv s =
      .next { s.afterRead (s.preset.v v).length with r0 := BitVec.ofNat 32 v.val, status := .ok } :=
  decCommand_answers hs (by rw [Cmd.bind_run, readV_run hw h]; rfl)

theorem execPcRdh_spelled {h : SetId} (hs : s.canDecode) (hw : s.preset.wf = true) (hh : s.spells (s.preset.h h)) :
    exec .pcRdh s =
      .next { s.afterRead (s.preset.h h).length with r0 := BitVec.ofNat 32 h.number.val, status := .ok } :=
  decCommand_answers hs (by rw [Cmd.bind_run, readH_run hw hh]; rfl)

theorem execPcRdv_malformed (hs : s.canDecode) (h : ∀ v, ¬ s.spells (s.preset.v v)) :
    exec .pcRdv s = .next { s.afterRead 8 with status := .malformed } := by
  refine decCommand_error hs ?_
  rw [Cmd.bind_run, readV, Cmd.bind_run, look_run]
  dsimp only
  rw [readCode_unspelled]
  rintro v w hv -
  obtain rfl : w = s.preset.v v := mem_verticalCodes.mp hv
  exact h v

theorem execPcRdh_malformed (hs : s.canDecode) (h : ∀ h, (s.preset.h h).length ≤ 8 → ¬ s.spells (s.preset.h h)) :
    exec .pcRdh s = .next { s.afterRead 8 with status := .malformed } := by
  refine decCommand_error hs ?_
  rw [Cmd.bind_run, readH, Cmd.bind_run, look_run]
  dsimp only
  rw [readCode_unspelled]
  intro a w ha
  obtain rfl : w = s.preset.h a := mem_horizontalCodes.mp ha
  exact h a

end

/-- Settles O29: no code starts another, so the loop ends at the one code that stands at `ROFF`, or at none. -/
theorem codeReadersReturnTheCodeAtRoff : Obligations.CodeReadersReturnTheCodeAtRoff := fun _ hw =>
  ⟨fun hs => ⟨exec_refused rfl hs, exec_refused rfl hs⟩, fun hs =>
    ⟨fun _ => execPcRdv_spelled hs hw, execPcRdv_malformed hs, fun _ _ => execPcRdh_spelled hs hw,
      execPcRdh_malformed hs⟩⟩

end Sys2Proof.Machine
end

section
/-!
The decoder of codes and the unit readers: where the decoder answers on the bits that are left of IN, the unit command reads
the same code (R94, R163, R164, R184, R186, log entry 9).
-/

namespace Sys2Proof.Machine

/-! ## The bits that are left of IN -/

theorem remainingBits_nil {s : State} (h : 8 * s.ilen ≤ s.roff) : remainingBits s = [] := by
  simp [remainingBits, Nat.sub_eq_zero_of_le h]

theorem remainingBits_cons {s : State} (h : s.roff < 8 * s.ilen) :
    remainingBits s = paddedBit s s.roff :: remainingBits (s.afterRead 1) := by
  obtain ⟨n, hn⟩ : ∃ n, 8 * s.ilen - s.roff = n + 1 := ⟨8 * s.ilen - s.roff - 1, by omega⟩
  have hrest : 8 * (s.afterRead 1).ilen - (s.afterRead 1).roff = n := by
    rw [State.afterRead_ilen, State.afterRead_roff]; omega
  rw [remainingBits, remainingBits, hn, hrest, List.range_succ_eq_map, List.map_cons, List.map_map, paddedBit,
    if_neg (by omega)]
  congr 1
  refine List.map_congr_left fun k _ => ?_
  show s.inp.bit (s.roff + (k + 1)) = s.inp.bit (s.roff + 1 + k)
  rw [Nat.add_assoc, Nat.add_comm 1]

/-! ## A parser and a reader in step -/

/-- Two readers of wire bits, one on a list and one on IN, are in step: where the first answers on the bits that are left,
the second answers too, both have consumed the same bits, none of them padding, and the answers and the number of bits
are related. -/
def InStep {α β : Type} (p : Parse α) (c : Cmd β) (R : α → β → Nat → Prop) : Prop :=
  ∀ (s : State) (x : α) (rest : BitStr), p (remainingBits s) = .ok x rest →
    ∃ y n, R x y n ∧ n ≤ 8 * s.ilen - s.roff ∧ c s = .ok y (s.afterRead n) ∧ rest = remainingBits (s.afterRead n)

section
variable {α β γ δ : Type} {R : α → β → Nat → Prop} {T : γ → δ → Nat → Prop}

theorem Parse.bind_ok {p : Parse α} {f : α → Parse γ} {bits rest : BitStr} {z : γ}
    (h : (p >>= f) bits = .ok z rest) : ∃ x mid, p bits = .ok x mid ∧ f x mid = .ok z rest := by
  simp only [bind, EStateM.bind] at h
  cases hp : p bits with
  | ok x mid => rw [hp] at h; exact ⟨x, mid, rfl, h⟩
  | error e mid => rw [hp] at h; cases h

theorem InStep.pure {x : α} {y : β} (h : R x y 0) : InStep (pure x) (pure y) R := by
  rintro s _ _ ⟨rfl, rfl⟩
  exact ⟨y, 0, h, Nat.zero_le _, by rw [s.afterRead_zero]; rfl, by rw [s.afterRead_zero]⟩

/-- Readers in step one after another are in step. -/
theorem InStep.bind {p : Parse α} {c : Cmd β} {f : α → Parse γ} {g : β → Cmd δ} (hp : InStep p c R)
    (hf : ∀ x y m, R x y m → InStep (f x) (g y) fun u v n => T u v (m + n)) : InStep (p >>= f) (c >>= g) T := by
  intro s z rest h
  obtain ⟨x, mid, hx, hz⟩ := Parse.bind_ok h
  obtain ⟨y, m, hR, hm, hc, rfl⟩ := hp s x mid hx
  obtain ⟨v, n, hT, hn, hg, rfl⟩ := hf x y m hR _ z rest hz
  rw [State.afterRead_ilen, State.afterRead_roff] at hn
  refine ⟨v, m + n, hT, by omega, ?_, by rw [State.afterRead_afterRead]⟩
  rw [Cmd.bind_run, hc, ← State.afterRead_afterRead]
  exact hg

theorem InStep.mono {p : Parse α} {c : Cmd β} {S : α → β → Nat → Prop} (hp : InStep p c R)
    (h : ∀ x y n, R x y n → S x y n) : InStep p c S := fun s x rest hx =>
  let ⟨y, n, hR, hn⟩ := hp s x rest hx
  ⟨y, n, h x y n hR, hn⟩

/-- A parser whose answer is renamed stays in step. -/
theorem InStep.rename {p : Parse α} {c : Cmd β} {g : α → γ} {S : γ → β → Nat → Prop} (hp : InStep p c R)
    (h : ∀ x y n, R x y n → S (g x) y n) : InStep (p >>= fun x => Pure.pure (g x)) c S := by
  intro s z rest hz
  obtain ⟨x, mid, hx, hpure⟩ := Parse.bind_ok hz
  obtain ⟨y, n, hR, hn⟩ := hp s x mid hx
  cases hpure
  exact ⟨y, n, h x y n hR, hn⟩

end

theorem inStep_getBit : InStep takeBit getBit fun x y n => x = y ∧ n = 1 := by
  intro s x rest h
  by_cases hs : s.roff < 8 * s.ilen
  · rw [remainingBits_cons hs] at h
    cases h
    exact ⟨_, 1, ⟨rfl, rfl⟩, by omega, getBit_run s, rfl⟩
  · rw [remainingBits_nil (by omega)] at h
    cases h

theorem inStep_getBitsFrom (acc n : Nat) :
    InStep (takeFieldFrom acc n) (getBitsFrom acc n) fun x y m => x = y ∧ x < (acc + 1) * 2 ^ n ∧ m = n := by
  induction n generalizing acc with
  | zero => exact .pure ⟨rfl, by omega, rfl⟩
  | succ n ih =>
    rw [takeFieldFrom, getBitsFrom]
    refine inStep_getBit.bind ?_
    rintro b _ _ ⟨rfl, rfl⟩
    refine (ih (2 * acc + b.toNat)).mono ?_
    rintro x _ m ⟨rfl, hx, rfl⟩
    have hdouble : (acc + 1) * 2 ^ (m + 1) = (2 * acc + 2) * 2 ^ m := by ring
    have hbit : (2 * acc + b.toNat + 1) * 2 ^ m ≤ (2 * acc + 2) * 2 ^ m :=
      Nat.mul_le_mul_right _ (by have := Bool.toNat_le b; omega)
    exact ⟨rfl, by omega, by omega⟩

/-- A field in step with `GetBits(n)` (R126). -/
theorem inStep_getBits (n : Nat) : InStep (takeField n) (getBits n) fun x y m => x = y ∧ x < 2 ^ n ∧ m = n :=
  (inStep_getBitsFrom 0 n).mono fun x y m h => by simpa using h

theorem stepBits_length (i c : Nat) : (stepBits i c).length = if i < c then i + 1 else i := by
  unfold stepBits
  split <;> simp

theorem inStep_readStepFrom (i n : Nat) :
    InStep (takeStepFrom i n) (readStepFrom i n) fun x y m =>
      x = y ∧ i ≤ x ∧ x ≤ i + n ∧ i + m = (stepBits x (i + n)).length := by
  induction n generalizing i with
  | zero => exact .pure ⟨rfl, Nat.le_refl _, Nat.le_refl _, by simp [stepBits_length]⟩
  | succ n ih =>
    rw [takeStepFrom, readStepFrom]
    refine inStep_getBit.bind ?_
    rintro b _ _ ⟨rfl, rfl⟩
    cases b with
    | true =>
      refine (ih (i + 1)).mono ?_
      rintro x _ m ⟨rfl, hlo, hhi, hm⟩
      have hcap : i + 1 + n = i + (n + 1) := by omega
      rw [hcap] at hhi hm
      exact ⟨rfl, by omega, hhi, by omega⟩
    | false => exact .pure ⟨rfl, Nat.le_refl _, by omega, by simp [stepBits_length]⟩

/-- A step code in step with `ReadStep(c)` (R182). -/
theorem inStep_readStep (c : Nat) :
    InStep (takeStep c) (readStep c) fun x y m => x = y ∧ x ≤ c ∧ m = (stepBits x c).length :=
  (inStep_readStepFrom 0 c).mono fun x y m h => by simpa using h

theorem inStep_readCode {α : Type} (codes : List (α × BitStr)) (e : DecodeError) (acc : BitStr) (n : Nat) :
    InStep (takeCode codes e acc n) (readCode codes acc n) fun x y m =>
      x = y ∧ ∃ w, (x, w) ∈ codes ∧ acc.length + m = w.length := by
  induction n generalizing acc with
  | zero => intro s x rest h; cases h
  | succ n ih =>
    rw [takeCode, readCode]
    refine inStep_getBit.bind ?_
    rintro b _ _ ⟨rfl, rfl⟩
    cases hfind : findCode codes (acc ++ [b]) with
    | some x => exact .pure ⟨rfl, _, exists_of_findCode hfind, by simp⟩
    | none =>
      refine (ih (acc ++ [b])).mono ?_
      rintro x _ m ⟨rfl, w, hw, hm⟩
      exact ⟨rfl, w, hw, by rw [← hm, List.length_append, List.length_singleton]; omega⟩

/-! ## The code rows -/

theorem exec_horizontalRow (h : SetId) (s : State) :
    exec (horizontalRow h) s = readForm (horizontalRow h) h.number.val s := by
  cases h <;> rfl

theorem encodeHead_horizontalRow (c : WireCtx) (h : SetId) : encodeHead c (horizontalRow h) = c.preset.h h := by
  cases h <;> rfl

theorem exec_verticalRow (v : Fin 28) (s : State) : exec (verticalRow v) s = readForm (verticalRow v) v.val s := by
  fin_cases v <;> rfl

theorem encodeHead_verticalRow (c : WireCtx) (v : Fin 28) : encodeHead c (verticalRow v) = c.preset.v v := by
  fin_cases v <;> rfl

theorem exec_step4Row {i : Nat} (h : i ≤ 4) (s : State) : exec (step4Row i) s = readForm (step4Row i) i s := by
  interval_cases i <;> rfl

theorem encodeHead_step4Row {i : Nat} (h : i ≤ 4) (c : WireCtx) : encodeHead c (step4Row i) = stepBits i 4 := by
  interval_cases i <;> rfl

theorem exec_step5Row {i : Nat} (h : i ≤ 5) (s : State) : exec (step5Row i) s = readForm (step5Row i) i s := by
  interval_cases i <;> rfl

theorem encodeHead_step5Row {i : Nat} (h : i ≤ 5) (c : WireCtx) : encodeHead c (step5Row i) = stepBits i 5 := by
  interval_cases i <;> rfl

theorem toNat_field {n f : Nat} (h : f < 2 ^ n) : (BitVec.ofNat n f).toNat = f := by
  rw [BitVec.toNat_ofNat, Nat.mod_eq_of_lt h]

/-- A count row answers the count of its tier and field (R99, R186). -/
theorem exec_countRow {i f : Nat} (hi : i ≤ 4) (hf : f < 2 ^ countWidth i) (s : State) :
    exec (countRow i f) s = readForm (countRow i f) (countBase i + f) s := by
  have hvalue : (BitVec.ofNat (countWidth i) f).toNat = f := toNat_field hf
  interval_cases i <;>
    exact congrArg (fun k => readForm _ (countBase _ + k) s) hvalue

theorem encodeHead_countRow {i f : Nat} (hi : i ≤ 4) (hf : f < 2 ^ countWidth i) (c : WireCtx) :
    encodeHead c (countRow i f) = countCode i f := by
  have hvalue : (BitVec.ofNat (countWidth i) f).toNat = f := toNat_field hf
  interval_cases i <;> exact congrArg (countCode _) hvalue

/-! ## The unit commands -/

/-- A unit command whose reader is in step with the decoder does what the row decoded does (log entry 9). -/
theorem exec_row_of_inStep {α : Type} {r : Reader} {cmd i : Instr} {body : Cmd Unit} {c : Cmd α} {value : α → Nat}
    {s : State} (hs : s.canDecode) (hcmd : exec cmd s = modeCommand .dec body s)
    (hbody : body s = (c >>= fun y => setR0 (value y)) s) (hi : wireForm r s = some i)
    (h : InStep (take r (wireCtx s)) c fun j y n =>
      exec j s = readForm j (value y) s ∧ (encodeHead (wireCtx s) j).length = n) :
    ∃ t, exec cmd s = .next t ∧ exec i s = .next t := by
  obtain ⟨rest, hdec⟩ : ∃ rest, take r (wireCtx s) (remainingBits s) = .ok i rest := by
    rw [wireForm, decode] at hi
    cases htake : take r (wireCtx s) (remainingBits s) with
    | ok j rest => rw [htake] at hi; cases hi; exact ⟨rest, rfl⟩
    | error e rest => rw [htake] at hi; cases hi
  obtain ⟨y, n, ⟨hexec, hn⟩, hle, hc, -⟩ := h s i rest hdec
  have hread : s.afterRead n = { s with roff := s.roff + n } := by
    rw [State.afterRead, decide_eq_false (by omega), Bool.or_false]
  have hanswer : body s = .ok () { s.afterRead n with r0 := BitVec.ofNat 32 (value y) } := by
    rw [hbody, Cmd.bind_run, hc]; rfl
  refine ⟨_, hcmd.trans (decCommand_answers hs hanswer), ?_⟩
  rw [hexec, hread]
  exact decCommand_answers (t := { s with roff := s.roff + n }) hs (by rw [Cmd.bind_run, consumeForm_run, hn]; rfl)

section
variable {s : State} {i : Instr}

theorem execPcRdh_row (hs : s.canDecode) (hi : wireForm .horizontal s = some i) :
    ∃ t, exec .pcRdh s = .next t ∧ exec i s = .next t := by
  refine exec_row_of_inStep (c := readCode (horizontalCodes s.preset) [] 8) (value := fun h => h.number.val) hs rfl rfl hi
    ((inStep_readCode _ _ _ _).rename ?_)
  rintro h _ m ⟨rfl, w, hw, hm⟩
  obtain rfl : w = s.preset.h h := mem_horizontalCodes.mp hw
  exact ⟨exec_horizontalRow h s, by rw [encodeHead_horizontalRow, wireCtx_preset, ← hm]; exact Nat.zero_add m⟩

theorem execPcRdv_row (hs : s.canDecode) (hi : wireForm .vertical s = some i) :
    ∃ t, exec .pcRdv s = .next t ∧ exec i s = .next t := by
  refine exec_row_of_inStep (c := readCode (verticalCodes s.preset) [] 8) (value := Fin.val) hs rfl rfl hi
    ((inStep_readCode _ _ _ _).rename ?_)
  rintro v _ m ⟨rfl, w, hw, hm⟩
  obtain rfl : w = s.preset.v v := mem_verticalCodes.mp hw
  exact ⟨exec_verticalRow v s, by rw [encodeHead_verticalRow, wireCtx_preset, ← hm]; exact Nat.zero_add m⟩

theorem execStepDec_row4 (hs : s.canDecode) (h0 : s.a0 = 4) (hi : wireForm .step4 s = some i) :
    ∃ t, exec .stepDec s = .next t ∧ exec i s = .next t := by
  refine exec_row_of_inStep (c := readStep 4) (value := id) hs rfl (by simp [h0]) hi
    ((inStep_readStep 4).rename ?_)
  rintro k _ m ⟨rfl, hk, rfl⟩
  exact ⟨exec_step4Row hk s, by rw [encodeHead_step4Row hk]⟩

theorem execStepDec_row5 (hs : s.canDecode) (h0 : s.a0 = 5) (hi : wireForm .step5 s = some i) :
    ∃ t, exec .stepDec s = .next t ∧ exec i s = .next t := by
  refine exec_row_of_inStep (c := readStep 5) (value := id) hs rfl (by simp [h0]) hi
    ((inStep_readStep 5).rename ?_)
  rintro k _ m ⟨rfl, hk, rfl⟩
  exact ⟨exec_step5Row hk s, by rw [encodeHead_step5Row hk]⟩

theorem field_length (n v : Nat) : (field n v).length = n := by
  simp [field_eq_map]

theorem execCntDec_row (hs : s.canDecode) (hi : wireForm .count s = some i) :
    ∃ t, exec .cntDec s = .next t ∧ exec i s = .next t := by
  refine exec_row_of_inStep (c := readCnt) (value := id) hs rfl rfl hi
    ((inStep_readStep 4).bind ?_)
  rintro k _ m ⟨rfl, hk, rfl⟩
  refine (inStep_getBits (countWidth k)).bind ?_
  rintro f _ m ⟨rfl, hf, rfl⟩
  refine .pure ⟨exec_countRow hk hf s, ?_⟩
  rw [encodeHead_countRow hk hf, countCode, List.length_append, field_length, Nat.add_zero]

end

/-- Settles O4: each unit reader is in step with the decoder of its codes. -/
theorem unitReadersRunTheCodeTheyRead : Obligations.UnitReadersRunTheCodeTheyRead := fun _ _ hs =>
  ⟨execPcRdh_row hs, execPcRdv_row hs, execStepDec_row4 hs, execStepDec_row5 hs, execCntDec_row hs⟩

end Sys2Proof.Machine
end

section
/-!
The class of a byte (R149), and the forms for a character, a line control or a frequent substring (R254, R295, R300).
-/

namespace Sys2Proof.Machine

/-! ## PC.CLASS -/

theorem execPcClass_run {s : State} {c : Byte} (hs : s.ready = true) (hc : c = s.a0.setWidth 8) :
    exec .pcClass s =
      .next (s.classified (classify s.preset c).1 (classify s.preset c).2.1 (classify s.preset c).2.2) := by
  subst hc
  show anyModeCommand _ s = _
  rw [anyModeCommand, endCommand]
  simp only [Cmd.bind_run, checkReady_run, if_pos hs, opByte_run, look_run, setR0_run, setR1_run, setR2_run]
  rfl

section
variable {p : Preset} {c : Byte}

theorem classify_upper {v : Fin 28} (hw : p.wf = true) (hc : uppercaseCode c)
    (hv : p.symbol .alpha v = .chr (c + 32)) : classify p c = (0, v.val, 1) := by
  have hclass := Preset.classOf_eq hw (c := c) (by omega) (by omega) (hv.trans (by rw [lowercase_of_upper hc]))
  rw [classify, if_pos (show isUpperLetter c = true from decide_eq_true hc), hclass]
  rfl

theorem classify_printable {set : SymSet} {v : Fin 28} (hw : p.wf = true) (hc : ¬ uppercaseCode c)
    (hlo : 0x21 ≤ c.toNat) (hhi : c.toNat ≤ 0x7E) (hv : p.symbol set v = .chr c) :
    classify p c = (set.number, v.val, 0) := by
  have hclass := Preset.classOf_eq hw hlo hhi (hv.trans (by rw [lowercase_of_not_upper hc]))
  rw [classify, if_neg (by simpa [isUpperLetter] using hc), if_pos ⟨hlo, hhi⟩, hclass]

theorem classify_space (p : Preset) : classify p 0x20 = (0, 1, 0) := by
  rw [classify, if_neg (by decide), if_neg (by decide), if_pos rfl]
  rfl

/-- A byte that is not printable is a line-control character of SYM, or of no class (R149). -/
theorem classify_unprintable (h : c.toNat < 0x20 ∨ 0x7F ≤ c.toNat) :
    classify p c = if (c = 0x0A ∨ c = 0x09 ∨ c = 0x0D) ∧ p.placesIn .sym (.chr c) ≠ [] then
      (1, (p.indexIn .sym (.chr c)).val, 0) else (0xFF, 0, 0) := by
  rw [classify, if_neg (by simp [isUpperLetter]; omega), if_neg (by omega),
    if_neg (by rintro rfl; exact absurd h (by decide))]
  rfl

end

/-- Settles O28: each byte falls in one branch of `classify`, where a printable character has one place. -/
theorem classAnswersThePlaceOfAByte : Obligations.ClassAnswersThePlaceOfAByte := by
  intro s c hs hw hc
  rw [execPcClass_run hs hc]
  refine ⟨fun set v hv hlo hhi hu => by rw [classify_printable hw hu hlo hhi hv],
    fun v hv hu => by rw [classify_upper hw hu hv], fun h => by rw [h, classify_space], ?control, ?other⟩
  case control =>
    intro h
    have hlow : c.toNat < 0x20 := by obtain rfl | rfl | rfl := h <;> decide
    rw [classify_unprintable (.inl hlow)]
    refine ⟨fun v hv => ?_, fun hnone => by rw [if_neg (fun hp => hp.2 hnone)]⟩
    rw [if_pos ⟨h, by rw [hv]; exact List.cons_ne_nil _ _⟩, Preset.indexIn_of_placesIn hv]
  case other =>
    intro h hlf htab hcr
    rw [classify_unprintable h, if_neg (fun hp => hp.1.elim hlf (·.elim htab hcr))]

/-! ## Symbols of the automaton -/

theorem putBytes_singleton (b : Byte) : putBytes [b] = putByte b := by
  rw [putBytes, putBytes, bind_pure_unit]

section
variable {s : State} {set : SymSet} {v : Fin 28} {i : Fin 6}

/-- A character symbol outputs one byte (R295). -/
theorem doSymbol_chr {c : Byte} (h : s.preset.symbol set v = .chr c) :
    doSymbol set v s = putBytes [outputByte set s.upper c] s := by
  rw [doSymbol, Cmd.bind_run, readState_run, putBytes_singleton]
  dsimp only
  rw [h]

theorem doSymbol_freq (h : s.preset.symbol set v = .freq i) : doSymbol set v s = expandFreq i s := by
  rw [doSymbol, Cmd.bind_run, readState_run]
  dsimp only
  rw [h]

/-- A character of SYM or NUM is output as it is (R295). -/
theorem outputByte_of_ne_alpha (h : set ≠ .alpha) (up : Bool) (c : Byte) : outputByte set up c = c :=
  if_neg fun hs => h hs.1

theorem expandFreq_some {bs : ByteStr} (h : s.preset.freq[i] = some bs) : expandFreq i s = putBytes bs s := by
  rw [expandFreq, Cmd.bind_run, look_run]
  dsimp only
  rw [freqOf_eq, h]

theorem expandFreq_none (h : s.preset.freq[i] = none) : expandFreq i s = .error .malformed s := by
  rw [expandFreq, Cmd.bind_run, look_run]
  dsimp only
  rw [freqOf_eq, h]
  rfl

theorem shiftedLetter_chr {c : Byte} (h : s.preset.symbol .alpha v = .chr c) :
    shiftedLetter v s = putBytes [c - 32] s := by
  rw [shiftedLetter, Cmd.bind_run, look_run, putBytes_singleton]
  dsimp only
  rw [h]

theorem bareSymbol_run (h : restingSymbols s.curSet = some set) : bareSymbol v s = doSymbol set v s := by
  rw [bareSymbol, Cmd.bind_run, look_run]
  dsimp only
  rw [h]

/-- A frequent substring of SYM leaves the resting set, one of NUM makes NUM it (R253, R254). -/
theorem freqForm_run (h : s.preset.places (.freq i) = [(set, v)]) :
    freqForm i s = if set = .sym then expandFreq i s else inNum (expandFreq i) s := by
  rw [freqForm, Cmd.bind_run, look_run]
  dsimp only
  rw [Preset.pairOf_of_places h]
  cases set <;> rfl

/-! ## The forms -/

theorem exec_freqRow (i : Fin 6) (s : State) : exec (freqRow i) s = tokenForm (freqRow i) (freqForm i) s := by
  fin_cases i <;> rfl

theorem inContext_freqRow (i : Fin 6) (c : WireCtx) : inContext c (freqRow i) = true := by
  fin_cases i <;> rfl

theorem encodePayload_freqRow (i : Fin 6) (c : WireCtx) : encodePayload c (freqRow i) = [] := by
  fin_cases i <;> rfl

/-- The resting set after a frequent substring (R254, R296). -/
def setAfterFreq (s : State) (set : SymSet) : Resting := if set = .sym then s.curSet else .num

theorem execFreqRow_outputs {bs : ByteStr} (hs : s.running) (hf : s.preset.freq[i] = some bs)
    (hp : s.preset.places (.freq i) = [(set, v)]) :
    (s.room bs.length →
      exec (freqRow i) s = .next { s.tokenDone (s.formLength (freqRow i)) bs with curSet := setAfterFreq s set }) ∧
    (s.overrun bs.length →
      exec (freqRow i) s = .next { s.cutShort (s.formLength (freqRow i)) bs with curSet := setAfterFreq s set }) := by
  rw [State.formLength_eq_headLength (encodePayload_freqRow i _), exec_freqRow]
  refine tokenForm_outputs hs (inContext_freqRow i _) ?_
  rw [freqForm_run (s := s.consumed (freqRow i)) hp, setAfterFreq]
  split
  · exact expandFreq_some (s := s.consumed (freqRow i)) hf
  · exact expandFreq_some (s := { s.consumed (freqRow i) with curSet := .num }) hf

theorem execFreqRow_malformed (hs : s.running) (hf : s.preset.freq[i] = none)
    (hp : s.preset.places (.freq i) = [(set, v)]) :
    exec (freqRow i) s = .next { s.malformedAt (s.formLength (freqRow i)) with curSet := setAfterFreq s set } := by
  rw [State.formLength_eq_headLength (encodePayload_freqRow i _), exec_freqRow]
  refine tokenForm_malformed hs (inContext_freqRow i _) ?_
  rw [freqForm_run (s := s.consumed (freqRow i)) hp, setAfterFreq]
  split
  · exact expandFreq_none (s := s.consumed (freqRow i)) hf
  · exact expandFreq_none (s := { s.consumed (freqRow i) with curSet := .num }) hf

end

section
variable {s : State} {set : SymSet} {v : Fin 28} {c : Byte}

/-- A form that outputs one byte for which there is room (R295). -/
theorem tokenForm_byte {i : Instr} {body : Cmd Unit} {r : Resting} (hs : s.running)
    (hc : inContext (wireCtx s) i = true)
    (hb : body (s.consumed i) = putBytes [c] { s.consumed i with curSet := r }) (hroom : s.room 1) :
    tokenForm i body s = .next { s.tokenDone (s.headLength i) [c] with curSet := r } :=
  (tokenForm_outputs (bs := [c]) hs hc hb).1 hroom

theorem execSymbol_chr (hs : s.running) (hv : v ≠ 0) (hset : restingSymbols s.curSet = some set)
    (h : s.preset.symbol set v = .chr c) (hroom : s.room 1) :
    exec (.symbol v) s = .next (s.tokenDone (s.preset.v v).length [outputByte set s.upper c]) := by
  have hdelta : s.curSet ≠ .delta := by rintro hd; rw [hd] at hset; cases hset
  refine tokenForm_byte (body := bareSymbol v) (r := s.curSet) hs (by simp [inContext, hdelta, switchIndex, hv]) ?_ hroom
  rw [bareSymbol_run (s := s.consumed (.symbol v)) hset]
  exact doSymbol_chr (s := s.consumed (.symbol v)) h

theorem execShift_chr (hs : s.running) (hv : 2 ≤ v.val) (hset : s.curSet = .alpha) (hu : s.upper = false)
    (h : s.preset.symbol .alpha v = .chr c) (hroom : s.room 1) :
    exec (.shift v) s = .next (s.tokenDone (s.formLength (.shift v)) [c - 32]) := by
  rw [State.formLength_eq_headLength rfl]
  exact tokenForm_byte (body := shiftedLetter v) (r := s.curSet) hs (by simp [inContext, hset, hu, hv])
    (shiftedLetter_chr (s := s.consumed (.shift v)) h) hroom

theorem execSymSymbol_chr (hs : s.running) (h : s.preset.symbol .sym v = .chr c) (hroom : s.room 1) :
    exec (.symSymbol v) s = .next (s.tokenDone (s.formLength (.symSymbol v)) [c]) := by
  rw [State.formLength_eq_headLength rfl]
  refine tokenForm_byte (body := doSymbol .sym v) (r := s.curSet) hs rfl ?_ hroom
  rw [doSymbol_chr (s := s.consumed (.symSymbol v)) h, outputByte_of_ne_alpha (by simp)]
  rfl

theorem execNumSymbol_chr (hs : s.running) (h : s.preset.symbol .num v = .chr c) (hroom : s.room 1) :
    exec (.numSymbol v) s = .next (s.numDone (.numSymbol v) [c]) := by
  rw [State.numDone, State.formLength_eq_headLength rfl]
  refine tokenForm_byte (body := inNum (doSymbol .num v)) hs rfl ?_ hroom
  rw [← outputByte_of_ne_alpha (set := .num) (by simp) s.upper c]
  exact doSymbol_chr (s := { s.consumed (.numSymbol v) with curSet := .num }) h

/-- A line-control form of one byte (R156, R295). -/
theorem execControl_byte {i : Instr} (hs : s.running) (hi : exec i s = tokenForm i (putByte c) s)
    (hc : inContext (wireCtx s) i = true) (hp : encodePayload (wireCtx s) i = []) (hroom : s.room 1) :
    exec i s = .next (s.tokenDone (s.formLength i) [c]) := by
  rw [hi, State.formLength_eq_headLength hp]
  exact tokenForm_byte (r := s.curSet) hs hc (by rw [putBytes_singleton]; rfl) hroom

theorem execCtrlCrlf_outputs (hs : s.running) :
    (s.room 2 → exec .ctrlCrlf s = .next (s.tokenDone (s.formLength .ctrlCrlf) [0x0D, 0x0A])) ∧
      (s.overrun 2 → exec .ctrlCrlf s = .next (s.cutShort (s.formLength .ctrlCrlf) [0x0D, 0x0A])) := by
  rw [State.formLength_eq_headLength rfl]
  exact tokenForm_outputs (body := putBytes [0x0D, 0x0A]) (c := s.curSet) hs rfl rfl

end

/-- Settles O50: each form's body is a byte string, written whole or as far as it fits, or an absent substring. -/
theorem characterFormsOutputTheirBytes : Obligations.CharacterFormsOutputTheirBytes := by
  intro s hs
  refine ⟨?alpha, ?num, fun v c hv hroom hset hu h => execShift_chr hs hv hset hu h hroom,
    fun v c hroom h => execSymSymbol_chr hs h hroom, fun v c hroom h => execNumSymbol_chr hs h hroom,
    execControl_byte hs rfl rfl rfl, (execCtrlCrlf_outputs hs).1, (execCtrlCrlf_outputs hs).2,
    execControl_byte hs rfl rfl rfl, execControl_byte hs rfl rfl rfl,
    fun i v bs hf => ⟨fun hp => execFreqRow_outputs hs hf hp, fun hp => execFreqRow_outputs hs hf hp⟩,
    fun i v hf => ⟨fun hp => execFreqRow_malformed hs hf hp, fun hp => execFreqRow_malformed hs hf hp⟩⟩
  case alpha =>
    intro v c hv hroom hset h
    rw [execSymbol_chr hs hv (by rw [hset]; rfl) h hroom, outputByte]
    simp [isLowerLetter]
  case num =>
    intro v c hv hroom hset h
    rw [execSymbol_chr hs hv (by rw [hset]; rfl) h hroom, outputByte_of_ne_alpha (by simp)]

end Sys2Proof.Machine
end

section
/-!
A stream that holds the bits of an encoder: what the readers answer for a step code, a count and a delta token (R182, R186,
R206), and how the automaton fetches the head of a token (R292, R296, R303).
-/

namespace Sys2Proof.Machine

/-! ## Bits of IN at ROFF -/

/-- Bits of IN stand at `ROFF`, none of them padding (R94, R124). -/
def State.holds (s : State) (bits : BitStr) : Prop := s.spells bits ∧ s.roff + bits.length ≤ 8 * s.ilen

/-- The block has read no padding, and its Preset is one that `INIT` accepts. -/
abbrev State.reading (s : State) : Prop := s.reos = false ∧ s.preset.wf = true

section
variable {s : State} {a b bits : BitStr}

theorem State.holds_append : s.holds (a ++ b) ↔ s.holds a ∧ (s.afterRead a.length).holds b := by
  simp only [State.holds, State.spells_append, List.length_append, State.afterRead_roff, State.afterRead_ilen]
  constructor
  · rintro ⟨⟨ha, hb⟩, hlen⟩
    exact ⟨⟨ha, by omega⟩, hb, by omega⟩
  · rintro ⟨⟨ha, -⟩, hb, hlen⟩
    exact ⟨⟨ha, hb⟩, by omega⟩

theorem State.reading_afterRead (hs : s.reading) (h : s.holds bits) : (s.afterRead bits.length).reading := by
  refine ⟨?_, hs.2⟩
  rw [State.afterRead_reos, hs.1, decide_eq_false (by have := h.2; omega)]
  rfl

/-- The state after bits of IN are read. -/
theorem State.afterRead_of_holds (h : s.holds bits) :
    s.afterRead bits.length = { s with roff := s.roff + bits.length } := by
  rw [State.afterRead, decide_eq_false (by have := h.2; omega), Bool.or_false]

end

/-! ## Fields, step codes, counts and delta heads -/

section
variable {s : State}

theorem foldl_field (n v acc : Nat) :
    (field n v).foldl (fun t b => 2 * t + b.toNat) acc = acc * 2 ^ n + v % 2 ^ n := by
  induction n generalizing acc with
  | zero => simp [field, Nat.mod_one]
  | succ n ih =>
    rw [field, List.foldl_cons, ih, Nat.toNat_testBit, Nat.mod_pow_succ]
    ring

/-- A field that stands at `ROFF` is read as its value (R126). -/
theorem getBits_field {n v : Nat} (hv : v < 2 ^ n) (h : s.spells (field n v)) :
    getBits n s = .ok v (s.afterRead n) := by
  rw [State.spells, field_length] at h
  rw [getBits_run, h, ofBits, foldl_field, Nat.zero_mul, Nat.zero_add, Nat.mod_eq_of_lt hv]

theorem readStepFrom_run {i n k : Nat} (hi : i ≤ n) (h : s.spells (stepBits i n)) :
    readStepFrom k n s = .ok (k + i) (s.afterRead (stepBits i n).length) := by
  induction n generalizing i k s with
  | zero =>
    obtain rfl : i = 0 := by omega
    rw [stepBits_length, if_neg (by omega), s.afterRead_zero]
    rfl
  | succ n ih =>
    rw [readStepFrom, Cmd.bind_run, getBit_run]
    dsimp only
    cases i with
    | zero =>
      have hbit : paddedBit s s.roff = false := (State.spells_cons.mp (show s.spells [false] from h)).1
      rw [hbit]
      rfl
    | succ i =>
      have hcons : stepBits (i + 1) (n + 1) = true :: stepBits i n := by
        simp [stepBits, List.replicate_succ]
      rw [hcons] at h ⊢
      obtain ⟨hbit, hrest⟩ := State.spells_cons.mp h
      rw [hbit, if_pos rfl, ih (Nat.le_of_succ_le_succ hi) hrest, State.afterRead_afterRead, List.length_cons,
        Nat.add_comm 1, Nat.add_right_comm k 1 i]
      rfl

theorem readStep_run {i c : Nat} (hi : i ≤ c) (h : s.spells (stepBits i c)) :
    readStep c s = .ok i (s.afterRead (stepBits i c).length) := by
  rw [readStep, readStepFrom_run hi h, Nat.zero_add]

/-- A count lies in its tier (R181, R185). -/
theorem countTier_bounds {v : Nat} (hv : v < 67732) :
    countTier v ≤ 4 ∧ countBase (countTier v) ≤ v ∧ v - countBase (countTier v) < 2 ^ countWidth (countTier v) := by
  unfold countTier
  split_ifs <;> simp only [countBase, countWidth] at * <;> omega

theorem readCnt_run {v : Nat} (hv : v < 67732) (h : s.spells (cntBits v)) :
    readCnt s = .ok v (s.afterRead (cntBits v).length) := by
  obtain ⟨htier, hbase, hfield⟩ := countTier_bounds hv
  rw [cntBits, countCode] at h ⊢
  obtain ⟨hstep, hrest⟩ := State.spells_append.mp h
  rw [readCnt, Cmd.bind_run, readStep_run htier hstep]
  dsimp only
  rw [Cmd.bind_run, getBits_field hfield hrest, State.afterRead_afterRead, List.length_append, field_length]
  dsimp only
  rw [Nat.add_sub_cancel' hbase]
  rfl

/-- A magnitude lies in its tier (R201, R203). -/
theorem deltaTier_bounds {m : Nat} (hm : m < 2183232) :
    deltaTier m < 5 ∧ deltaBase (deltaTier m) ≤ m ∧ m - deltaBase (deltaTier m) < 2 ^ deltaWidth (deltaTier m) := by
  unfold deltaTier
  split_ifs <;> simp only [deltaBase, deltaWidth] at * <;> omega

theorem deltaValue_natAbs {i : Nat} {d : Int} (h : deltaBase i ≤ d.natAbs) :
    deltaValue i (decide (d < 0)) (d.natAbs - deltaBase i) = d := by
  rw [deltaValue, Nat.add_sub_cancel' h]
  split
  · rename_i hneg
    have := of_decide_eq_true hneg
    omega
  · rename_i hneg
    have := of_decide_eq_false (Bool.eq_false_iff.mpr hneg)
    omega

theorem readDeltaHead_delta {d : Int} (hd : d.natAbs < 2183232) (h : s.spells (deltaBits d)) :
    readDeltaHead s = .ok (.delta d) (s.afterRead (deltaBits d).length) := by
  obtain ⟨htier, hbase, hfield⟩ := deltaTier_bounds hd
  rw [deltaBits, deltaCode] at h ⊢
  obtain ⟨hstep, hrest⟩ := State.spells_append.mp h
  obtain ⟨hsign, hmag⟩ := State.spells_cons.mp hrest
  rw [readDeltaHead, Cmd.bind_run, readStep_run (Nat.le_of_lt htier) hstep]
  dsimp only
  rw [if_neg (by omega), Cmd.bind_run, getBit_run, hsign]
  dsimp only
  rw [Cmd.bind_run, getBits_field hfield hmag, State.afterRead_afterRead, State.afterRead_afterRead, List.length_append,
    List.length_cons, field_length, Nat.add_comm 1]
  dsimp only
  rw [deltaValue_natAbs hbase]
  rfl

theorem readDeltaHead_escape {e : Nat} (he : e ≤ 4) (h : s.spells (escapeBits e)) :
    readDeltaHead s = .ok (.escape e) (s.afterRead (escapeBits e).length) := by
  rw [escapeBits] at h ⊢
  obtain ⟨hstep, hrest⟩ := State.spells_append.mp h
  rw [readDeltaHead, Cmd.bind_run, readStep_run (Nat.le_refl 5) hstep]
  dsimp only
  rw [if_pos rfl, Cmd.bind_run, readStep_run he hrest, State.afterRead_afterRead, List.length_append]
  rfl

end

/-! ## Reads of the automaton -/

section
variable {s : State} {bits : BitStr} {α β : Type} {read : Cmd α} {x : α}

/-- A field or a count that stands in IN is followed by no halt (R293). -/
theorem read_eos_run {f : α → Cmd β} (hs : s.reading) (h : s.holds bits)
    (hx : read s = .ok x (s.afterRead bits.length)) :
    (do let a ← read; eos; f a : Cmd β) s = f x (s.afterRead bits.length) := by
  rw [Cmd.bind_run, hx]
  dsimp only
  rw [Cmd.bind_run, eos_run, (State.reading_afterRead hs h).1]
  rfl

theorem readElement_run_holds {f : α → Cmd β} (hs : s.reading) (h : s.holds bits)
    (hx : read s = .ok x (s.afterRead bits.length)) :
    (readElement read >>= f) s = f x (s.afterRead bits.length) := by
  rw [Cmd.bind_run, readElement_ok hx (State.reading_afterRead hs h).1]

theorem readElement_readV {f : Fin 28 → Cmd β} {v : Fin 28} (hs : s.reading) (h : s.holds (s.preset.v v)) :
    (readElement readV >>= f) s = f v (s.afterRead (s.preset.v v).length) :=
  readElement_run_holds hs h (readV_run hs.2 h.1)

theorem readElement_readH {f : SetId → Cmd β} {h : SetId} (hs : s.reading) (hh : s.holds (s.preset.h h)) :
    (readElement readH >>= f) s = f h (s.afterRead (s.preset.h h).length) :=
  readElement_run_holds hs hh (readH_run hs.2 hh.1)

/-! ## The head of a token -/

/-- Before the end of IN the automaton dispatches on `SET` (R292). -/
theorem fetchAndRun_run (hne : bits ≠ []) (h : s.holds bits) :
    fetchAndRun s = match restingSymbols s.curSet with
      | none => restingDelta s
      | some set => verticalToken set s := by
  have hpos := List.length_pos_iff.mpr hne
  have hlt : s.roff < 8 * s.ilen := by have := h.2; omega
  rw [fetchAndRun, Cmd.bind_run, readState_run]
  dsimp only
  rw [Cmd.bind_run, require_run, if_pos hlt]
  dsimp only
  cases restingSymbols s.curSet <;> rfl

theorem Preset.v_ne_nil {p : Preset} (hw : p.wf = true) (v : Fin 28) : p.v v ≠ [] :=
  List.length_pos_iff.mp (by have := (Preset.wf_v_length hw v).1; omega)

/-- A vertical code that is not the switch code is a symbol of the resting set (R292). -/
theorem fetch_symbol {set : SymSet} {v : Fin 28} (hs : s.reading) (hset : restingSymbols s.curSet = some set)
    (hv : v ≠ switchIndex) (h : s.holds (s.preset.v v)) :
    fetchAndRun s = doSymbol set v (s.afterRead (s.preset.v v).length) := by
  rw [fetchAndRun_run (Preset.v_ne_nil hs.2 v) h, hset]
  dsimp only
  rw [verticalToken, readElement_readV hs h, if_neg hv]

/-- The head of a delta token in the resting set DELTA (R303). -/
theorem fetch_delta {d : DeltaHead} (hs : s.reading) (hset : s.curSet = .delta) (hne : bits ≠ []) (h : s.holds bits)
    (hd : readDeltaHead s = .ok d (s.afterRead bits.length)) :
    fetchAndRun s = deltaEffect switchInDelta d (s.afterRead bits.length) := by
  rw [fetchAndRun_run hne h, hset]
  exact read_eos_run hs h hd

/-- A switch sends the automaton to the tail of its set (R292, R307). -/
theorem fetch_switch {k : SetId} (hs : s.reading) (h : s.holds (switchBits s.preset s.curSet k)) :
    fetchAndRun s = doTail k (s.afterRead (switchBits s.preset s.curSet k).length) := by
  have hvertical (set : SymSet) (hset : restingSymbols s.curSet = some set)
      (h : s.holds (s.preset.v switchIndex ++ s.preset.h k)) :
      fetchAndRun s = doTail k (s.afterRead (s.preset.v switchIndex ++ s.preset.h k).length) := by
    obtain ⟨hv, hh⟩ := State.holds_append.mp h
    rw [fetchAndRun_run (Preset.v_ne_nil hs.2 _) hv, hset]
    dsimp only
    rw [verticalToken, readElement_readV hs hv, if_pos rfl, readElement_readH (State.reading_afterRead hs hv) hh,
      State.afterRead_afterRead, List.length_append]
    rfl
  cases hset : s.curSet with
  | alpha => rw [hset] at h; exact hvertical .alpha (by rw [hset]; rfl) h
  | num => rw [hset] at h; exact hvertical .num (by rw [hset]; rfl) h
  | delta =>
    rw [hset] at h
    obtain ⟨he, hh⟩ := State.holds_append.mp (show s.holds (escapeBits 1 ++ s.preset.h k) from h)
    refine (fetch_delta hs hset (by simp [escapeBits, stepBits]) he (readDeltaHead_escape (by omega) he.1)).trans ?_
    show switchInDelta _ = _
    rw [switchInDelta, readElement_readH (State.reading_afterRead hs he) hh, State.afterRead_afterRead,
      ← List.length_append]
    rfl

end

end Sys2Proof.Machine
end

section
/-!
The tokens of the automaton that move the modes or output bytes, by the bits they are spelled with (R292 to R300), and
several of them one after another.
-/

namespace Sys2Proof.Machine

/-! ## The tails of a switch -/

section
variable {s : State} {v : Fin 28}

theorem doTail_sym (hs : s.reading) (h : s.holds (s.preset.v v)) :
    doTail .sym s = doSymbol .sym v (s.afterRead (s.preset.v v).length) :=
  readElement_readV hs h

theorem doTail_num (hs : s.reading) (h : s.holds (s.preset.v v)) :
    doTail .num s = doSymbol .num v { s.afterRead (s.preset.v v).length with curSet := .num } := by
  rw [doTail, Cmd.bind_run, enterSet_num_run]
  exact readElement_readV (s := { s with curSet := .num }) hs h

/-- A switch to SYM and a symbol of it (R296). -/
theorem fetch_symSymbol (hs : s.reading) (h : s.holds (switchBits s.preset s.curSet .sym ++ s.preset.v v)) :
    fetchAndRun s =
      doSymbol .sym v (s.afterRead (switchBits s.preset s.curSet .sym ++ s.preset.v v).length) := by
  obtain ⟨hsw, hv⟩ := State.holds_append.mp h
  rw [fetch_switch hs hsw, doTail_sym (State.reading_afterRead hs hsw) hv, State.afterRead_afterRead,
    List.length_append]
  rfl

/-- A switch to NUM and a symbol of it (R296). -/
theorem fetch_switchedNum (hs : s.reading) (h : s.holds (switchBits s.preset s.curSet .num ++ s.preset.v v)) :
    fetchAndRun s = doSymbol .num v
      { s.afterRead (switchBits s.preset s.curSet .num ++ s.preset.v v).length with curSet := .num } := by
  obtain ⟨hsw, hv⟩ := State.holds_append.mp h
  rw [fetch_switch hs hsw, doTail_num (State.reading_afterRead hs hsw) hv, State.afterRead_afterRead,
    List.length_append]
  rfl

/-- A symbol of NUM, with the switch to NUM unless NUM is the resting set (R233). -/
theorem fetch_num (hs : s.reading) (hv : v ≠ switchIndex)
    (h : s.holds (switchUnless s .num .num ++ s.preset.v v)) :
    fetchAndRun s = doSymbol .num v
      { s.afterRead (switchUnless s .num .num ++ s.preset.v v).length with curSet := .num } := by
  rw [switchUnless] at h ⊢
  by_cases hset : s.curSet = .num
  · rw [if_pos hset, List.nil_append] at h ⊢
    rw [fetch_symbol hs (set := .num) (by rw [hset]; rfl) hv h, ← hset]
    rfl
  · rw [if_neg hset] at h ⊢
    exact fetch_switchedNum hs h

/-- From another resting set, a switch to ALPHA is a token (R297). -/
theorem fetch_toAlpha (hs : s.reading) (hset : s.curSet ≠ .alpha)
    (h : s.holds (switchBits s.preset s.curSet .alpha)) :
    fetchAndRun s =
      .ok () { s.afterRead (switchBits s.preset s.curSet .alpha).length with curSet := .alpha } := by
  rw [fetch_switch hs h, doTail, tailAlpha, Cmd.bind_run, readState_run]
  dsimp only
  rw [if_pos (show (s.afterRead _).curSet ≠ .alpha from hset), enterSet_alpha_run]

/-- In ALPHA a shift sends the automaton to the tail of ALPHA (R297). -/
theorem fetch_shift (hs : s.reading) (hset : s.curSet = .alpha) (h : s.holds (shiftBits s.preset)) :
    fetchAndRun s = tailAlpha (s.afterRead (shiftBits s.preset).length) := by
  have hbits : shiftBits s.preset = switchBits s.preset s.curSet .alpha := by rw [hset]; rfl
  rw [hbits] at h ⊢
  exact fetch_switch hs h

theorem fetch_upperOff (hs : s.reading) (hset : s.curSet = .alpha) (hu : s.upper = true)
    (h : s.holds (shiftBits s.preset)) :
    fetchAndRun s = .ok () { s.afterRead (shiftBits s.preset).length with upper := false } := by
  rw [fetch_shift hs hset h, tailAlpha, Cmd.bind_run, readState_run]
  dsimp only
  rw [if_neg (not_not.mpr (show (s.afterRead _).curSet = .alpha from hset)),
    if_pos (show (s.afterRead _).upper = true from hu), setUpper_run]

/-- What the code after a shift in ALPHA does (R297 to R300). -/
def afterShift (v : Fin 28) : Cmd Unit :=
  if v = switchIndex then do
    let h ← readElement readH
    require (h = .alpha) .malformed
    setUpper true
  else if v = spaceIndex then update (fun t => { t with curSet := .delta })
  else shiftedLetter v

theorem fetch_shifted (hs : s.reading) (hset : s.curSet = .alpha) (hu : s.upper = false)
    (h : s.holds (shiftBits s.preset ++ s.preset.v v)) :
    fetchAndRun s = afterShift v (s.afterRead (shiftBits s.preset ++ s.preset.v v).length) := by
  obtain ⟨hshift, hv⟩ := State.holds_append.mp h
  rw [fetch_shift hs hset hshift, tailAlpha, Cmd.bind_run, readState_run]
  dsimp only
  rw [if_neg (not_not.mpr (show (s.afterRead _).curSet = .alpha from hset)),
    if_neg (show ¬ (s.afterRead _).upper = true by rw [State.afterRead_upper, hu]; decide),
    readElement_readV (State.reading_afterRead hs hshift) hv, State.afterRead_afterRead, List.length_append]
  rfl

theorem fetch_upperOn (hs : s.reading) (hset : s.curSet = .alpha) (hu : s.upper = false)
    (h : s.holds (shiftBits s.preset ++ shiftBits s.preset)) :
    fetchAndRun s =
      .ok () { s.afterRead (shiftBits s.preset ++ shiftBits s.preset).length with upper := true } := by
  have hbits : shiftBits s.preset ++ shiftBits s.preset =
      (shiftBits s.preset ++ s.preset.v switchIndex) ++ s.preset.h .alpha := by
    rw [List.append_assoc]; rfl
  rw [hbits] at h ⊢
  obtain ⟨hv, hh⟩ := State.holds_append.mp h
  rw [fetch_shifted hs hset hu hv, afterShift, if_pos rfl, readElement_readH (State.reading_afterRead hs hv) hh,
    State.afterRead_afterRead, ← List.length_append]
  rfl

end

/-! ## Tokens that move the modes and output bytes -/

/-- The bits of a token that, read in given modes, moves the modes and outputs bytes, and does nothing else (R292). -/
structure Token (p : Preset) (c : Resting) (u : Bool) (bits : BitStr) (bs : ByteStr) (c' : Resting) (u' : Bool) :
    Prop where
  nonempty : bits ≠ []
  fetch : ∀ s : State, s.reading → s.preset = p → s.curSet = c → s.upper = u → s.holds bits →
    fetchAndRun s = putBytes bs { s with roff := s.roff + bits.length, curSet := c', upper := u' }

section
variable {p : Preset} {c : Resting} {u : Bool} {v : Fin 28} {x : Byte}

theorem switchBits_ne_nil (hw : p.wf = true) (c : Resting) (h : SetId) : switchBits p c h ≠ [] := by
  cases c with
  | delta => simp [switchBits, stepBits]
  | alpha => simp [switchBits, Preset.v_ne_nil hw]
  | num => simp [switchBits, Preset.v_ne_nil hw]

theorem shiftBits_ne_nil (hw : p.wf = true) : shiftBits p ≠ [] := switchBits_ne_nil hw .alpha .alpha

theorem token_toAlpha (hw : p.wf = true) (hc : c ≠ .alpha) : Token p c u (switchBits p c .alpha) [] .alpha u where
  nonempty := switchBits_ne_nil hw c .alpha
  fetch := by
    rintro s hs rfl rfl rfl h
    rw [fetch_toAlpha hs hc h, State.afterRead_of_holds h]
    rfl

theorem token_upperOff (hw : p.wf = true) : Token p .alpha true (shiftBits p) [] .alpha false where
  nonempty := shiftBits_ne_nil hw
  fetch := by
    rintro s hs rfl hset hu h
    rw [fetch_upperOff hs hset hu h, State.afterRead_of_holds h, ← hset]
    rfl

theorem token_upperOn (hw : p.wf = true) : Token p .alpha false (shiftBits p ++ shiftBits p) [] .alpha true where
  nonempty := by simp [shiftBits_ne_nil hw]
  fetch := by
    rintro s hs rfl hset hu h
    rw [fetch_upperOn hs hset hu h, State.afterRead_of_holds h, ← hset]
    rfl

theorem token_enterDelta (hw : p.wf = true) :
    Token p .alpha false (shiftBits p ++ p.v spaceIndex) [] .delta false where
  nonempty := by simp [shiftBits_ne_nil hw]
  fetch := by
    rintro s hs rfl hset hu h
    rw [fetch_shifted hs hset hu h, State.afterRead_of_holds h, ← hu]
    rfl

theorem token_shift (hw : p.wf = true) (hv : 2 ≤ v.val) (h : p.symbol .alpha v = .chr x) :
    Token p .alpha false (shiftBits p ++ p.v v) [x - 32] .alpha false where
  nonempty := by simp [shiftBits_ne_nil hw]
  fetch := by
    rintro s hs rfl hset hu hbits
    have hswitch : v ≠ switchIndex := by rintro rfl; exact absurd hv (by decide)
    have hspace : v ≠ spaceIndex := by rintro rfl; exact absurd hv (by decide)
    rw [fetch_shifted hs hset hu hbits, State.afterRead_of_holds hbits, afterShift, if_neg hswitch, if_neg hspace,
      ← hset, ← hu]
    exact shiftedLetter_chr h

theorem token_symbol {set : SymSet} (hw : p.wf = true) (hc : restingSymbols c = some set) (hv : v ≠ switchIndex)
    (h : p.symbol set v = .chr x) : Token p c u (p.v v) [outputByte set u x] c u where
  nonempty := Preset.v_ne_nil hw v
  fetch := by
    rintro s hs rfl rfl rfl hbits
    rw [fetch_symbol hs hc hv hbits, State.afterRead_of_holds hbits]
    exact doSymbol_chr h

/-- A symbol of SYM that outputs bytes. -/
theorem token_sym {bs : ByteStr} (hw : p.wf = true)
    (h : ∀ s : State, s.preset = p → doSymbol .sym v s = putBytes bs s) :
    Token p c u (switchBits p c .sym ++ p.v v) bs c u where
  nonempty := by simp [switchBits_ne_nil hw]
  fetch := by
    rintro s hs rfl rfl rfl hbits
    rw [fetch_symSymbol hs hbits, State.afterRead_of_holds hbits]
    exact h _ rfl

/-- A symbol of NUM that outputs bytes, with the switch to NUM unless NUM is the resting set (R233). -/
theorem token_num {bs : ByteStr} (hw : p.wf = true) (hv : v ≠ switchIndex)
    (h : ∀ s : State, s.preset = p → doSymbol .num v s = putBytes bs s) :
    Token p c u ((if c = .num then [] else switchBits p c .num) ++ p.v v) bs .num u where
  nonempty := by simp [Preset.v_ne_nil hw]
  fetch := by
    rintro s hs rfl rfl rfl hbits
    have hnum : s.holds (switchUnless s .num .num ++ s.preset.v v) := hbits
    rw [fetch_num hs hv hnum, State.afterRead_of_holds hnum]
    exact h _ rfl

theorem doSymbol_chr_of_ne_alpha {s : State} {set : SymSet} (hset : set ≠ .alpha) (h : s.preset.symbol set v = .chr x) :
    doSymbol set v s = putBytes [x] s := by
  rw [doSymbol_chr h, outputByte_of_ne_alpha hset]

/-- A literal escape of DELTA (R303, R306). -/
theorem token_escape {e : Nat} (he : e ≤ 4) (hne : e ≠ 1) : Token p .delta u (escapeBits e) [escapeByte e] .delta u where
  nonempty := by simp [escapeBits, stepBits]
  fetch := by
    rintro s hs rfl hset rfl hbits
    rw [fetch_delta hs hset (by simp [escapeBits, stepBits]) hbits (readDeltaHead_escape he hbits.1),
      State.afterRead_of_holds hbits, putBytes_singleton, ← hset]
    exact congrFun (if_neg hne) _

end

/-! ## Several tokens -/

/-- Bits that are several tokens one after another: how many, what they output and where they leave the modes. -/
inductive Tokens (p : Preset) : Nat → Resting → Bool → BitStr → ByteStr → Resting → Bool → Prop where
  | nil (c : Resting) (u : Bool) : Tokens p 0 c u [] [] c u
  | cons {n : Nat} {c c' c'' : Resting} {u u' u'' : Bool} {a b : BitStr} {as bs : ByteStr}
      (h : Token p c u a as c' u') (ht : Tokens p n c' u' b bs c'' u'') : Tokens p (n + 1) c u (a ++ b) (as ++ bs) c'' u''

section
variable {p : Preset} {c c' c'' : Resting} {u u' u'' : Bool} {a b bits : BitStr} {as bs : ByteStr} {m n : Nat}

theorem Token.tokens (h : Token p c u bits bs c' u') : Tokens p 1 c u bits bs c' u' := by
  have ht := Tokens.cons h (.nil c' u')
  rwa [List.append_nil, List.append_nil] at ht

theorem Tokens.append (h : Tokens p m c u a as c' u') (h' : Tokens p n c' u' b bs c'' u'') :
    Tokens p (m + n) c u (a ++ b) (as ++ bs) c'' u'' := by
  induction h with
  | nil => rwa [Nat.zero_add]
  | cons ht _ ih =>
    rw [List.append_assoc, List.append_assoc, Nat.add_right_comm]
    exact .cons ht (ih h')

theorem Tokens.token (h : Tokens p 1 c u bits bs c' u') : Token p c u bits bs c' u' := by
  cases h with
  | cons ht hn => cases hn; simpa using ht

/-! ## DEC.STEP -/

/-- A step whose turn halts nowhere (R291, R292). -/
theorem execDecStep_ok {d t : State} (hd : d.running) (h : fetchAndRun d = .ok () t) :
    exec .decStep d = .next { t with r0 := BitVec.ofNat 32 (t.opos - d.opos), status := .ok } := by
  obtain ⟨⟨hready, hmode⟩, hhalt, -⟩ := hd
  show modeCommand .dec (automaton fetchAndRun) d = _
  rw [modeCommand_run hready hmode, endCommand_ok (t := { t with r0 := BitVec.ofNat 32 (t.opos - d.opos) })]
  rw [automaton, if_pos hhalt, h]

/-- A step whose turn halts (R291, R292). -/
theorem execDecStep_error {d t : State} {e : Status} (hd : d.running) (h : fetchAndRun d = .error e t) :
    exec .decStep d =
      .next { t with r0 := BitVec.ofNat 32 (t.opos - d.opos), halt := Halt.ofStatus e, status := e } := by
  obtain ⟨⟨hready, hmode⟩, hhalt, -⟩ := hd
  show modeCommand .dec (automaton fetchAndRun) d = _
  rw [modeCommand_run hready hmode,
    endCommand_error (e := e) (t := { t with r0 := BitVec.ofNat 32 (t.opos - d.opos), halt := Halt.ofStatus e })]
  rw [automaton, if_pos hhalt, h]

/-- Bytes that have room are all written; no bytes need no room (R128). -/
theorem putBytes_written {s : State} (h : bs = [] ∨ s.room bs.length) : putBytes bs s = .ok () (s.written bs) := by
  obtain rfl | hroom := h
  · rfl
  · exact putBytes_room hroom

/-- A step on a token whose bytes have room (R292). -/
theorem Token.execDecStep {d : State} (h : Token d.preset d.curSet d.upper bits bs c' u') (hd : d.running)
    (hw : d.preset.wf = true) (hbits : d.holds bits) (hroom : bs = [] ∨ d.room bs.length) :
    exec .decStep d = .next { d.tokenDone bits.length bs with curSet := c', upper := u' } := by
  rw [execDecStep_ok hd ((h.fetch d ⟨hd.2.2, hw⟩ rfl rfl rfl hbits).trans (putBytes_written hroom)), State.written_opos]
  dsimp only
  rw [Nat.add_sub_cancel_left]
  rfl

theorem Memory.fill_append (m : Memory) (a : Nat) (as bs : ByteStr) :
    m.fill a (as ++ bs) = (m.fill a as).fill (a + as.length) bs := by
  induction as generalizing m a with
  | nil => rfl
  | cons x as ih => rw [List.cons_append, Memory.fill, ih, Memory.fill, List.length_cons, Nat.add_right_comm, Nat.add_assoc]

theorem State.decodeTo_reached {d : State} {target : Nat} (h : d.roff = target) (n : Nat) : d.decodeTo target n = d := by
  cases n with
  | zero => rfl
  | succ n => rw [State.decodeTo, if_neg (by omega)]

theorem State.decodeTo_step {d t : State} {target : Nat} (n : Nat) (hd : d.running) (hlt : d.roff < target)
    (h : exec .decStep d = .next t) : d.decodeTo target (n + 1) = t.decodeTo target n := by
  rw [State.decodeTo, if_pos ⟨hd.2.1, hlt⟩, State.decStepped, h]

/-- Several tokens take as many steps, halt nowhere and output their bytes, where those have room (R292). -/
theorem Tokens.decodeTo {d : State} {target : Nat} (h : Tokens d.preset n d.curSet d.upper bits bs c' u')
    (hd : d.running) (hw : d.preset.wf = true) (hbits : d.holds bits) (hroom : bs = [] ∨ d.room bs.length)
    (htarget : d.roff + bits.length = target) (hn : n ≤ m) :
    ∃ r x, d.decodeTo target m =
      { d.tokenDone bits.length bs with curSet := c', upper := u', r0 := r, status := x } := by
  generalize hp : d.preset = p at h
  generalize hc : d.curSet = c at h
  generalize hu : d.upper = u at h
  induction h generalizing d m with
  | nil c u =>
    refine ⟨d.r0, d.status, ?_⟩
    subst hc hu
    exact State.decodeTo_reached htarget m
  | @cons n c c' c'' u u' u'' a b as bs ht _ ih =>
    subst hp hc hu
    obtain ⟨m, rfl⟩ : ∃ k, m = k + 1 := ⟨m - 1, by omega⟩
    obtain ⟨ha, hb⟩ := State.holds_append.mp hbits
    rw [List.length_append] at htarget
    rw [List.append_eq_nil_iff, List.length_append] at hroom
    have hstep := ht.execDecStep hd hw ha (hroom.imp And.left fun h => ⟨h.1, by have := h.2; omega⟩)
    have hlt : d.roff < target := by have := List.length_pos_iff.mpr ht.nonempty; omega
    obtain ⟨r, x, hrest⟩ := ih (d := { d.tokenDone a.length as with curSet := c', upper := u' }) (m := m) hd hw hb
      (hroom.imp And.right fun h => ⟨h.1, by have := h.2; show d.opos + as.length + bs.length ≤ d.ocap; omega⟩)
      (by show d.roff + a.length + b.length = target; omega) (by omega) rfl rfl rfl
    refine ⟨r, x, ?_⟩
    rw [State.decodeTo_step m hd hlt hstep, hrest, List.length_append]
    simp only [State.tokenDone, Memory.fill_append, List.length_append, Nat.add_assoc]

end

end Sys2Proof.Machine
end

section
/-!
The literals through the stream: what an encoder sends stands at the decoder's `ROFF`, and the appends of `PC.LIT` are
tokens that output its character (R153, R154, R382, R383).
-/

namespace Sys2Proof.Machine

/-! ## From one block to another -/

section
variable {fin : State → State} {e e' d : State} {as : List BitAppend} {bits : BitStr} {i : Instr}

/-- A command of several appends that ends OK has made all of them (R65, R230). -/
theorem State.emits_eq_of_ok (h : (e.emits fin as).status = .ok) :
    e.emits fin as = { fin (e.emitted as) with status := .ok } := by
  induction as generalizing e with
  | nil => rfl
  | cons a as ih =>
    by_cases hf : e.fits a.bits.length
    · rw [State.emits_cons_fits as hf] at h ⊢
      rw [ih h, State.emitted_cons]
    · rw [State.emits_cons_unfit as hf, State.overflowed] at h
      split at h <;> cases h

/-- Bits appended by one block stand at the `ROFF` of the block that carries on from it (R382, R383). -/
theorem holds_of_carries (hw : e.out.wf = true) (hout : e'.out = e.out.putBits e.woff bits)
    (hwoff : e'.woff = e.woff + bits.length) (h : carries e e' d) : d.holds bits := by
  obtain ⟨hroff, hilen, hbit⟩ := h
  refine ⟨List.ext_getElem (d.nextBits_length _) fun k _ hk => ?_, by omega⟩
  have hcarried := hbit (e.woff + k) (by omega) (by omega)
  rw [hout, Memory.bit_putBits_inside hw e.woff bits hk] at hcarried
  simp only [State.nextBits, List.getElem_map, List.getElem_range, paddedBit]
  rw [if_neg (by omega), hroff, hcarried]

/-- A command that ends OK has made all of its appends, and another block holds their bits. -/
theorem sent_of_emits (hw : e.out.wf = true) (hemits : exec i e = .next (e.emits fin as)) (hexec : exec i e = .next e')
    (hok : e'.status = .ok) (hfin : ∀ s, (fin s).out = s.out ∧ (fin s).woff = s.woff) (hc : carries e e' d) :
    e' = { fin (e.emitted as) with status := .ok } ∧ d.holds (appendBits as) := by
  obtain rfl : e.emits fin as = e' := by simpa [hemits] using hexec
  have hall := State.emits_eq_of_ok hok
  obtain ⟨hout, hwoff⟩ := hfin (e.emitted as)
  rw [hall] at hc ⊢
  exact ⟨rfl, holds_of_carries hw hout hwoff hc⟩

end

/-! ## The places of the letters -/

section
variable {p : Preset}

theorem Preset.exists_place (hw : p.wf = true) {c : Byte} (hlo : 0x21 ≤ c.toNat) (hhi : c.toNat ≤ 0x7E) :
    ∃ set v, p.symbol set v = .chr (lowercase c) := by
  simp only [Preset.wf, Preset.wfCharacters, Bool.and_eq_true, List.all_eq_true, decide_eq_true_eq] at hw
  obtain ⟨⟨⟨-, ⟨⟨⟨⟨⟨hplaces, -⟩, -⟩, -⟩, -⟩, -⟩⟩, -⟩, -⟩ := hw
  have hmem : c ∈ printables :=
    List.mem_map.mpr ⟨c.toNat - 0x21, List.mem_range.mpr (by omega),
      BitVec.eq_of_toNat_eq (by rw [BitVec.toNat_ofNat]; omega)⟩
  obtain ⟨⟨set, v⟩, hq⟩ := List.length_eq_one_iff.mp (hplaces c hmem)
  exact ⟨set, v, Preset.mem_places.mp (hq ▸ List.mem_singleton_self _)⟩

theorem Preset.alpha_switch (hw : p.wf = true) : p.symbol .alpha switchIndex = .switch := by
  simp only [Preset.wf, Preset.wfSpecials, Bool.and_eq_true, decide_eq_true_eq] at hw
  exact hw.1.2.1.1

theorem Preset.num_esc (hw : p.wf = true) : p.symbol .num switchIndex = .esc := by
  simp only [Preset.wf, Preset.wfSpecials, Bool.and_eq_true, decide_eq_true_eq] at hw
  exact hw.1.2.1.2

theorem Preset.alpha_space (hw : p.wf = true) : p.symbol .alpha spaceIndex = .chr 0x20 := by
  simp only [Preset.wf, Preset.wfCharacters, Bool.and_eq_true, decide_eq_true_eq] at hw
  exact hw.1.1.2.1.1.1.2

/-- Behind the switch and the space ALPHA holds letters (R141 (c)). -/
theorem Preset.alpha_letter (hw : p.wf = true) (k : Fin 26) :
    ∃ x : Fin 26, p.symbol .alpha (k.natAdd 2) = .chr (BitVec.ofNat 8 (0x61 + x.val)) := by
  simp only [Preset.wf, Preset.wfCharacters, Bool.and_eq_true, List.all_eq_true] at hw
  obtain ⟨⟨⟨-, ⟨⟨⟨⟨⟨-, -⟩, -⟩, hletters⟩, -⟩, -⟩⟩, -⟩, -⟩ := hw
  have hmem : ∀ k : Fin 26, k.natAdd 2 ∈ indices.drop 2 := by decide
  have hletter := hletters _ (hmem k)
  rw [Preset.letterAt] at hletter
  split at hletter
  case h_1 c hc =>
    have hrange : 0x61 ≤ c.toNat ∧ c.toNat ≤ 0x7A := of_decide_eq_true hletter
    refine ⟨⟨c.toNat - 0x61, by omega⟩, hc.trans (congrArg Symbol.chr (BitVec.eq_of_toNat_eq ?_))⟩
    rw [BitVec.toNat_ofNat]
    show c.toNat = (0x61 + (c.toNat - 0x61)) % 2 ^ 8
    omega
  case h_2 => cases hletter

/-- All 26 letters are in ALPHA: 26 places hold letters, and no letter has two places (R141 (c)). -/
theorem Preset.exists_letter (hw : p.wf = true) {c : Byte} (hlo : 0x61 ≤ c.toNat) (hhi : c.toNat ≤ 0x7A) :
    ∃ v : Fin 28, 2 ≤ v.val ∧ p.symbol .alpha v = .chr c := by
  choose letter hletter using Preset.alpha_letter hw
  have hinj : Function.Injective letter := by
    intro a b hab
    have hcode : (BitVec.ofNat 8 (0x61 + (letter a).val)).toNat = 0x61 + (letter a).val := by
      rw [BitVec.toNat_ofNat]; omega
    have hlower : lowercase (BitVec.ofNat 8 (0x61 + (letter a).val)) = BitVec.ofNat 8 (0x61 + (letter a).val) :=
      lowercase_of_not_upper (by omega)
    have hclass (k : Fin 26) (hk : letter k = letter a) :
        p.classOf (BitVec.ofNat 8 (0x61 + (letter a).val)) = (.alpha, k.natAdd 2) :=
      Preset.classOf_eq hw (by omega) (by omega) (by rw [hletter k, hk, hlower])
    have hplace := (hclass a rfl).symm.trans (hclass b hab.symm)
    exact (Fin.natAdd_inj 2).mp (congrArg Prod.snd hplace)
  obtain ⟨k, hk⟩ := Finite.surjective_of_injective hinj ⟨c.toNat - 0x61, by omega⟩
  refine ⟨k.natAdd 2, by simp, (hletter k).trans (congrArg Symbol.chr (BitVec.eq_of_toNat_eq ?_))⟩
  rw [hk, BitVec.toNat_ofNat]
  show (0x61 + (c.toNat - 0x61)) % 2 ^ 8 = c.toNat
  omega

end

/-! ## The appends of a literal as tokens -/

/-- From a state, appends are so many tokens, which output the given bytes and leave the modes that the encoder has after
the appends (R153). -/
def SpelledBy (s : State) (n : Nat) (as : List BitAppend) (bs : ByteStr) : Prop :=
  Tokens s.preset n s.curSet s.upper (appendBits as) bs (s.emitted as).curSet (s.emitted as).upper

section
variable {s : State} {c : Byte} {v : Fin 28}

/-- The switch to ALPHA is one token, or none where ALPHA is the resting set. -/
theorem tokens_switchAlpha (hw : s.preset.wf = true) : ∃ n, n ≤ 1 ∧ (s.curSet = .alpha → n = 0) ∧
    Tokens s.preset n s.curSet s.upper (switchUnless s .alpha .alpha) [] .alpha s.upper := by
  rw [switchUnless]
  by_cases h : s.curSet = .alpha
  · exact ⟨0, by omega, fun _ => rfl, by rw [if_pos h, h]; exact .nil _ _⟩
  · exact ⟨1, by omega, fun ha => absurd ha h, by rw [if_neg h]; exact (token_toAlpha hw h).tokens⟩

/-- The shift that leaves all-uppercase mode is one token, or none where the mode is off. -/
theorem tokens_upperOff {p : Preset} (hw : p.wf = true) (u : Bool) : ∃ n, n ≤ 1 ∧ (u = false → n = 0) ∧
    Tokens p n .alpha u (if u then shiftBits p else []) [] .alpha false := by
  cases u with
  | false => exact ⟨0, by omega, fun _ => rfl, .nil _ _⟩
  | true => exact ⟨1, by omega, fun h => (nomatch h), (token_upperOff hw).tokens⟩

/-- The switch to ALPHA and the end of all-uppercase mode, each sent where it is needed (R154, R160). -/
theorem tokens_plainAlpha (hw : s.preset.wf = true) : ∃ n, n ≤ 2 ∧ (s.curSet = .alpha → s.upper = false → n = 0) ∧
    Tokens s.preset n s.curSet s.upper (appendBits (switchAppend s .alpha .alpha ++
      (if s.upper then [⟨shiftBits s.preset, .alpha, false⟩] else []))) [] .alpha false := by
  obtain ⟨m, hm, hmzero, hswitch⟩ := tokens_switchAlpha hw
  obtain ⟨n, hn, hnzero, hoff⟩ := tokens_upperOff hw s.upper
  have hbits : appendBits (switchAppend s .alpha .alpha ++
      (if s.upper then [⟨shiftBits s.preset, .alpha, false⟩] else [])) =
      switchUnless s .alpha .alpha ++ (if s.upper then shiftBits s.preset else []) := by
    rw [appendBits_append, appendBits_switchAppend]
    cases s.upper <;> simp
  refine ⟨m + n, by omega, fun ha hu => by rw [hmzero ha, hnzero hu], ?_⟩
  rw [hbits]
  exact hswitch.append hoff

/-- Appends whose last one leaves known modes, by the tokens that their bits are. -/
theorem SpelledBy.of_tokens {n : Nat} {as : List BitAppend} {a : BitAppend} {bs : ByteStr}
    (h : Tokens s.preset n s.curSet s.upper (appendBits as ++ a.bits) bs a.set a.upper) :
    SpelledBy s n (as ++ [a]) bs := by
  obtain ⟨hset, hupper⟩ := s.emitted_concat_modes as a
  rw [SpelledBy, hset, hupper, appendBits_append, appendBits_cons, appendBits_nil, List.append_nil]
  exact h

/-- The appends of a literal are at most three tokens that output its character; from ALPHA with all-uppercase mode off they
are one, which leaves the mode off (R153, R154). -/
def LiteralSpelled (s : State) (as : List BitAppend) (c : Byte) : Prop :=
  ∃ n, n ≤ 3 ∧ (s.curSet = .alpha → s.upper = false → n = 1 ∧ (s.emitted as).upper = false) ∧ SpelledBy s n as [c]

theorem LiteralSpelled.of_tokens {n : Nat} {as : List BitAppend} {a : BitAppend} (hn : n ≤ 3)
    (hone : s.curSet = .alpha → s.upper = false → n = 1 ∧ a.upper = false)
    (h : Tokens s.preset n s.curSet s.upper (appendBits as ++ a.bits) [c] a.set a.upper) :
    LiteralSpelled s (as ++ [a]) c := by
  refine ⟨n, hn, ?_, .of_tokens h⟩
  rw [(s.emitted_concat_modes as a).2]
  exact hone

theorem LiteralSpelled.of_token {as : List BitAppend} {a : BitAppend} (hu : a.upper = s.upper)
    (h : Token s.preset s.curSet s.upper (appendBits as ++ a.bits) [c] a.set a.upper) :
    LiteralSpelled s (as ++ [a]) c :=
  .of_tokens (by omega) (fun _ hoff => ⟨rfl, hu.trans hoff⟩) h.tokens

theorem toNat_shifted (hc : uppercaseCode c) : (c + 32).toNat = c.toNat + 32 := by
  rw [BitVec.toNat_add]
  exact Nat.mod_eq_of_lt (by show c.toNat + 32 < 2 ^ 8; omega)

theorem literalSpelled_upper (hw : s.preset.wf = true) (hc : uppercaseCode c) (hv : 2 ≤ v.val)
    (h : s.preset.symbol .alpha v = .chr (c + 32)) :
    LiteralSpelled s (switchAppend s .alpha .alpha ++
      (if s.upper then [] else [appendIn s .alpha (shiftBits s.preset)]) ++ [appendIn s .alpha (s.preset.v v)]) c := by
  obtain ⟨n, hn, hzero, hswitch⟩ := tokens_switchAlpha hw
  have hback : c + 32 - 32 = c := BitVec.add_sub_cancel c 32
  have hlast : Token s.preset .alpha s.upper ((if s.upper then [] else shiftBits s.preset) ++ s.preset.v v) [c]
      .alpha s.upper := by
    cases s.upper with
    | true =>
      have hlower : isLowerLetter (c + 32) = true :=
        decide_eq_true (by rw [toNat_shifted hc]; omega)
      have hout : outputByte .alpha true (c + 32) = c := (if_pos ⟨rfl, rfl, hlower⟩).trans hback
      have ht := token_symbol (u := true) hw (c := .alpha) rfl (by rintro rfl; exact absurd hv (by decide)) h
      rwa [hout] at ht
    | false =>
      have ht := token_shift hw hv h
      rwa [hback] at ht
  refine .of_tokens (n := n + 1) (by omega) (fun ha hu => ⟨by rw [hzero ha], hu⟩) ?_
  have hbits : appendBits (switchAppend s .alpha .alpha ++
      (if s.upper then [] else [appendIn s .alpha (shiftBits s.preset)])) =
      switchUnless s .alpha .alpha ++ (if s.upper then [] else shiftBits s.preset) := by
    rw [appendBits_append, appendBits_switchAppend]
    cases s.upper <;> simp [appendIn]
  rw [hbits, List.append_assoc]
  exact hswitch.append hlast.tokens

theorem literalSpelled_alpha (hw : s.preset.wf = true) (h : s.preset.symbol .alpha v = .chr c) :
    LiteralSpelled s (switchAppend s .alpha .alpha ++
      (if s.upper then [⟨shiftBits s.preset, .alpha, false⟩] else []) ++ [⟨s.preset.v v, .alpha, false⟩]) c := by
  obtain ⟨n, hn, hzero, hplain⟩ := tokens_plainAlpha hw
  have hv : v ≠ switchIndex := by rintro rfl; rw [Preset.alpha_switch hw] at h; cases h
  have hlast : Token s.preset .alpha false (s.preset.v v) [c] .alpha false :=
    token_symbol (set := .alpha) (u := false) hw rfl hv h
  exact .of_tokens (n := n + 1) (by omega) (fun ha hu => ⟨by rw [hzero ha hu], rfl⟩) (hplain.append hlast.tokens)

theorem literalSpelled_sym (hw : s.preset.wf = true) (h : s.preset.symbol .sym v = .chr c) :
    LiteralSpelled s [plainAppend s (switchBits s.preset s.curSet .sym), plainAppend s (s.preset.v v)] c := by
  refine .of_token (as := [plainAppend s (switchBits s.preset s.curSet .sym)]) rfl ?_
  rw [appendBits_cons, appendBits_nil, List.append_nil]
  exact token_sym hw fun t ht => doSymbol_chr_of_ne_alpha (by simp) (ht ▸ h)

theorem literalSpelled_num (hw : s.preset.wf = true) (h : s.preset.symbol .num v = .chr c) :
    LiteralSpelled s (switchAppend s .num .num ++ [appendIn s .num (s.preset.v v)]) c := by
  have hv : v ≠ switchIndex := by rintro rfl; rw [Preset.num_esc hw] at h; cases h
  refine .of_token rfl ?_
  rw [appendBits_switchAppend]
  exact token_num hw hv fun t ht => doSymbol_chr_of_ne_alpha (by simp) (ht ▸ h)

/-- A literal of one append that leaves the modes. -/
theorem literalSpelled_single {bits : BitStr} (h : Token s.preset s.curSet s.upper bits [c] s.curSet s.upper) :
    LiteralSpelled s [plainAppend s bits] c :=
  .of_token (as := []) rfl h

/-- A literal escape of DELTA. -/
theorem literalSpelled_escape {e : Nat} (hdelta : s.curSet = .delta) (he : e ≤ 4) (hne : e ≠ 1) (hc : escapeByte e = c) :
    LiteralSpelled s [plainAppend s (escapeBits e)] c := by
  refine literalSpelled_single ?_
  rw [hdelta, ← hc]
  exact token_escape he hne

/-- The space: a symbol of NUM, an escape of DELTA, or the space of ALPHA. -/
theorem litSpace_spelled (hw : s.preset.wf = true) :
    ∃ as, Emits id s as litSpace ∧ LiteralSpelled s as 0x20 := by
  by_cases hdelta : s.curSet = .delta
  · exact ⟨_, emits_litSpace_delta hdelta, literalSpelled_escape hdelta (by omega) (by omega) rfl⟩
  by_cases hnum : s.curSet = .num ∧ s.preset.placesIn .num (.chr 0x20) ≠ []
  · obtain ⟨hset, hplaces⟩ := hnum
    obtain ⟨v, hv⟩ := List.exists_mem_of_ne_nil _ hplaces
    have hsym := Preset.mem_placesIn.mp hv
    refine ⟨_, emits_litSpace_num hset (Preset.placesIn_space hw hsym), literalSpelled_single ?_⟩
    rw [hset]
    exact token_symbol (set := .num) hw rfl (by rintro rfl; rw [Preset.num_esc hw] at hsym; cases hsym) hsym
  have hset : s.curSet = .alpha ∨ (s.curSet = .num ∧ s.preset.placesIn .num (.chr 0x20) = []) := by
    cases hc : s.curSet with
    | alpha => exact .inl rfl
    | num => exact .inr ⟨rfl, not_not.mp fun hp => hnum ⟨hc, hp⟩⟩
    | delta => exact absurd hc hdelta
  obtain ⟨n, hn, hzero, hswitch⟩ := tokens_switchAlpha hw
  have hlast := token_symbol (set := .alpha) (u := s.upper) (c := .alpha) hw rfl (by decide) (Preset.alpha_space hw)
  have hout : outputByte .alpha s.upper 0x20 = 0x20 := if_neg fun h => absurd h.2.2 (by decide)
  rw [hout] at hlast
  refine ⟨_, emits_litSpace_alpha hset,
    .of_tokens (n := n + 1) (by omega) (fun ha hu => ⟨by rw [hzero ha], hu⟩) ?_⟩
  rw [appendBits_switchAppend]
  exact hswitch.append hlast.tokens

theorem litOther_spelled (hw : s.preset.wf = true) (hc : ¬ uppercaseCode c) (hlo : 0x21 ≤ c.toNat)
    (hhi : c.toNat ≤ 0x7E) : ∃ as, Emits id s as (litOther c) ∧ LiteralSpelled s as c := by
  obtain ⟨set, v, hv⟩ := Preset.exists_place hw hlo hhi
  have hclass := Preset.classOf_eq hw hlo hhi hv
  rw [lowercase_of_not_upper hc] at hv
  cases set with
  | alpha => exact ⟨_, emits_litOther_alpha hclass, literalSpelled_alpha hw hv⟩
  | sym => exact ⟨_, emits_litOther_sym hclass, literalSpelled_sym hw hv⟩
  | num => exact ⟨_, emits_litOther_num hclass, literalSpelled_num hw hv⟩

/-- Every printable character is sent as tokens that output it (R153, R154). -/
theorem literal_spelled (hw : s.preset.wf = true) (hlo : 0x20 ≤ c.toNat) (hhi : c.toNat ≤ 0x7E) :
    ∃ as, Emits id s as (literal c) ∧ LiteralSpelled s as c := by
  by_cases hu : uppercaseCode c
  · have hcode := toNat_shifted hu
    obtain ⟨v, hv, hsym⟩ := Preset.exists_letter hw (c := c + 32) (by omega) (by omega)
    have hclass := Preset.classOf_eq hw (c := c) (by omega) hhi (hsym.trans (by rw [lowercase_of_upper hu]))
    exact ⟨_, emits_literal_upper hu (emits_litUpper hclass), literalSpelled_upper hw hu hv hsym⟩
  by_cases hspace : c = 0x20
  · subst hspace
    obtain ⟨as, hemits, hspelled⟩ := litSpace_spelled hw
    exact ⟨as, emits_literal_space hemits, hspelled⟩
  have hprint : 0x21 ≤ c.toNat := by
    have : c.toNat ≠ 0x20 := fun h => hspace (BitVec.eq_of_toNat_eq h)
    omega
  by_cases hescape : s.curSet = .delta ∧ (c = 0x2C ∨ c = 0x2E)
  · obtain ⟨hdelta, rfl | rfl⟩ := hescape
    · exact ⟨_, emits_literal_comma hdelta, literalSpelled_escape hdelta (by omega) (by omega) rfl⟩
    · exact ⟨_, emits_literal_period hdelta, literalSpelled_escape hdelta (by omega) (by omega) rfl⟩
  obtain ⟨as, hemits, hspelled⟩ := litOther_spelled (s := s) hw hu hprint hhi
  exact ⟨as, emits_literal_other hu hprint hescape hemits, hspelled⟩

end

/-- A literal that ends OK was in range, and sent its appends (R154). -/
theorem execPcLit_sent {e e' d : State} (he : e.canEncode) (hout : e.out.wf = true) (hw : e.preset.wf = true)
    (hexec : exec .pcLit e = .next e') (hok : e'.status = .ok) (hc : carries e e' d) :
    ∃ as, LiteralSpelled e as (e.a0.setWidth 8) ∧ e' = { e.emitted as with status := .ok } ∧
      d.holds (appendBits as) := by
  by_cases hrange : 0x20 ≤ (e.a0.setWidth 8).toNat ∧ (e.a0.setWidth 8).toNat ≤ 0x7E
  · obtain ⟨as, hemits, hspelled⟩ := literal_spelled hw hrange.1 hrange.2
    exact ⟨as, hspelled,
      sent_of_emits hout (execPcLit_emits he rfl hrange.1 hrange.2 hemits) hexec hok (fun _ => ⟨rfl, rfl⟩) hc⟩
  · rw [execPcLit_range he rfl (by omega)] at hexec
    cases hexec
    cases hok

/-- Settles O59: in ALPHA with all-uppercase mode off a literal is one token, which the decoder's step outputs. -/
theorem literalsRoundTripThroughTheStream : Obligations.LiteralsRoundTripThroughTheStream := by
  intro e e' d he hout hw _ hset hupper hexec hok hd hp hdset hdupper hroom hc
  obtain ⟨as, ⟨n, -, hone, hspelled⟩, rfl, hbits⟩ := execPcLit_sent he hout hw hexec hok hc
  obtain ⟨rfl, hoff⟩ := hone hset hupper
  have htoken := hspelled.token
  rw [← hp, hset, hupper, hoff, ← hdset, ← hdupper] at htoken
  have hend : d.roff + (appendBits as).length = (e.emitted as).woff := by rw [State.emitted_woff, hc.1]
  rw [htoken.execDecStep hd (hp ▸ hw) hbits (.inr hroom), State.tokenDone, hend]
  rfl

end Sys2Proof.Machine
end

section
/-!
Where a run of the decoder ends that raises nothing: how far it has read, and the modes it leaves. The expansions read a
known number of bits and leave the modes, whatever the bits are (R236, R241, R244, R247, R250, R257).
-/

namespace Sys2Proof.Machine

section
variable {α β : Type}

/-- A run that raises nothing ends at an offset of IN, with the modes and the codepoint of a state; what it raises is not
OK. -/
def Lands (r : EStateM.Result Status State α) (off : Nat) (m : State) : Prop :=
  match r with
  | .ok _ t => t.roff = off ∧ t.curSet = m.curSet ∧ t.upper = m.upper ∧ t.prevCp = m.prevCp
  | .error x _ => x ≠ .ok

/-- From every state a run reads so many bits and leaves the modes. -/
def Moves (n : Nat) (c : Cmd α) : Prop := ∀ s : State, Lands (c s) (s.roff + n) s

theorem Lands.congr {r : EStateM.Result Status State α} {off off' : Nat} {m m' : State} (h : Lands r off m)
    (hoff : off = off') (hset : m.curSet = m'.curSet) (hupper : m.upper = m'.upper) (hcp : m.prevCp = m'.prevCp) :
    Lands r off' m' := by
  cases r with
  | error x t => exact h
  | ok a t => rw [Lands, ← hoff, ← hset, ← hupper, ← hcp]; exact h

theorem Moves.congr {c : Cmd α} {m n : Nat} (h : Moves m c) (hn : m = n) : Moves n c := hn ▸ h

/-! ## The constructs of the pseudocode -/

theorem Moves.bind {c : Cmd α} {f : α → Cmd β} {m n : Nat} (hc : Moves m c) (hf : ∀ a, Moves n (f a)) :
    Moves (m + n) (c >>= f) := by
  intro s
  have h := hc s
  rw [Cmd.bind_run]
  cases hr : c s with
  | error x t => rw [hr] at h; exact h
  | ok a t =>
    rw [hr] at h
    obtain ⟨hoff, hset, hupper, hcp⟩ := h
    exact (hf a t).congr (by rw [hoff, Nat.add_assoc]) hset hupper hcp

/-- What leaves `ROFF` and the modes, and then the rest. -/
theorem Moves.then {c : Cmd α} {f : α → Cmd β} {n : Nat} (hc : Moves 0 c) (hf : ∀ a, Moves n (f a)) :
    Moves n (c >>= f) :=
  (hc.bind hf).congr (Nat.zero_add n)

theorem Moves.pure (a : α) : Moves 0 (Pure.pure a : Cmd α) := fun _ => ⟨rfl, rfl, rfl, rfl⟩

theorem Moves.look (f : State → α) : Moves 0 (Machine.look f) := fun _ => ⟨rfl, rfl, rfl, rfl⟩

theorem Moves.readState : Moves 0 Machine.readState := fun _ => ⟨rfl, rfl, rfl, rfl⟩

theorem Moves.raise {e : Status} (he : e ≠ .ok) (n : Nat) : Moves n (Machine.raise e : Cmd α) := fun _ => he

theorem Moves.require {c : Prop} [Decidable c] {e : Status} (he : e ≠ .ok) : Moves 0 (Machine.require c e) := by
  intro s
  rw [require_run]
  split
  · exact ⟨rfl, rfl, rfl, rfl⟩
  · exact he

theorem Moves.ite {c : Prop} [Decidable c] {x y : Cmd α} {n : Nat} (hx : Moves n x) (hy : Moves n y) :
    Moves n (if c then x else y) := by
  split <;> assumption

end

/-! ## Bytes and bits -/

theorem moves_putByte (b : Byte) : Moves 0 (putByte b) := by
  intro s
  rw [putByte_run]
  split
  · exact nofun
  split
  · exact nofun
  · exact ⟨rfl, rfl, rfl, rfl⟩

theorem moves_putBytes (bs : ByteStr) : Moves 0 (putBytes bs) := by
  induction bs with
  | nil => exact .pure ()
  | cons b bs ih => exact (moves_putByte b).then fun _ => ih

theorem moves_getBits (n : Nat) : Moves n (getBits n) := fun s => by
  rw [getBits_run]
  exact ⟨rfl, rfl, rfl, rfl⟩

theorem moves_eos : Moves 0 eos := by
  intro s
  rw [eos_run]
  split
  · exact nofun
  · exact ⟨rfl, rfl, rfl, rfl⟩

/-- A field, the halt where it needed padding, and what follows. -/
theorem moves_getBits_eos {α : Type} {f : Nat → Cmd α} {w n : Nat} (hf : ∀ x, Moves n (f x)) :
    Moves (w + n) (do let x ← getBits w; eos; f x) :=
  (moves_getBits w).bind fun x => moves_eos.then fun _ => hf x

/-! ## The expansions -/

theorem moves_copyBack (dist n : Nat) : Moves 0 (copyBack dist n) := by
  induction n with
  | zero => exact .pure ()
  | succ n ih => exact (Moves.look _).then fun b => (moves_putByte b).then fun _ => ih

theorem moves_copyRef (len x line : Nat) : Moves 0 (copyRef len x line) := by
  refine Moves.readState.then fun s => .ite ((Moves.require (by decide)).then fun _ => moves_copyBack _ _) ?_
  cases s.lh[line - 1]? with
  | none => exact .raise (by decide) 0
  | some l => exact (Moves.require (by decide)).then fun _ => moves_putBytes _

theorem moves_putRepeated (b : Byte) (n : Nat) : Moves 0 (putRepeated b n) := by
  induction n with
  | zero => exact .pure ()
  | succ n ih => exact (moves_putByte b).then fun _ => ih

theorem moves_repeatLast (r : Nat) : Moves 0 (repeatLast r) :=
  Moves.readState.then fun _ => (Moves.require (by decide)).then fun _ => moves_putRepeated _ r

theorem moves_hexLoop (up : HexCase) (n : Nat) : Moves (4 * n) (hexLoop up n) := by
  induction n with
  | zero => exact .pure ()
  | succ n ih => exact (moves_getBits_eos fun x => (moves_putByte _).then fun _ => ih).congr (by omega)

theorem moves_putGuidNibble (up : HexCase) (q x : Nat) : Moves 0 (putGuidNibble up q x) :=
  (moves_putByte _).then fun _ => .ite (moves_putByte _) (.pure ())

theorem moves_guidLoop (up : HexCase) (q n : Nat) : Moves (4 * n) (guidLoop up q n) := by
  induction n generalizing q with
  | zero => exact .pure ()
  | succ n ih =>
    exact (moves_getBits_eos fun x => (moves_putGuidNibble up q x).then fun _ => ih (q + 1)).congr (by omega)

theorem moves_binLoop (n : Nat) : Moves (8 * n) (binLoop n) := by
  induction n with
  | zero => exact .pure ()
  | succ n ih => exact (moves_getBits_eos fun x => (moves_putByte _).then fun _ => ih).congr (by omega)

theorem moves_templateLoop (ts : ByteStr) : Moves (placeholderWidths ts).sum (templateLoop ts) := by
  induction ts with
  | nil => exact .pure ()
  | cons t ts ih =>
    rw [templateLoop, placeholderWidths]
    cases letterWidth t with
    | none => exact (moves_putByte t).then fun _ => ih
    | some w =>
      refine (moves_getBits_eos fun x => (moves_putByte (letterByte t x)).then fun _ => ih).congr ?_
      rw [List.sum_cons]

end Sys2Proof.Machine
end

section
/-!
One token of an encoder in a decoder of the same modes: the turn of the automaton ends behind the bits that were sent, in
the modes the encoder is left in (R292, R295, R303).
-/

namespace Sys2Proof.Machine

/-- A running decoder in the modes of an encoder. -/
structure Peer (e d : State) : Prop where
  wf : e.preset.wf = true
  codepoint : e.prevCp ≤ Config.cpMax
  running : d.running
  preset : d.preset = e.preset
  curSet : d.curSet = e.curSet
  upper : d.upper = e.upper
  prevCp : d.prevCp = e.prevCp
  lhen : d.lhen = e.lhen

/-- Appends of an encoder are one token: the turn of a decoder in the same modes reads their bits, and ends in the modes
that the encoder has after them. -/
def OneToken (e : State) (fin : State → State) (as : List BitAppend) : Prop :=
  ∀ d, Peer e d → d.holds (appendBits as) →
    Lands (fetchAndRun d) (d.roff + (appendBits as).length) (fin (e.emitted as))

section
variable {e d s : State} {as : List BitAppend} {bits bs : BitStr} {fin : State → State} {α : Type}

theorem Peer.reading (h : Peer e d) : d.reading := ⟨h.running.2.2, h.preset ▸ h.wf⟩

/-! ## Tokens that output bytes -/

theorem Token.oneToken {bs : ByteStr} (h : Token e.preset e.curSet e.upper (appendBits as) bs (e.emitted as).curSet
    (e.emitted as).upper) : OneToken e id as := by
  intro d hd hbits
  rw [h.fetch d hd.reading hd.preset hd.curSet hd.upper hbits]
  exact (moves_putBytes bs _).congr rfl rfl rfl hd.prevCp

theorem SpelledBy.oneToken {bs : ByteStr} (h : SpelledBy e 1 as bs) : OneToken e id as := h.token.oneToken

/-! ## Counts and sub-codes -/

theorem readCnt_bind {f : Nat → Cmd α} {v : Nat} (hv : v < 67732) (h : s.holds (cntBits v)) :
    (readCnt >>= f) s = f v (s.afterRead (cntBits v).length) := by
  rw [Cmd.bind_run, readCnt_run hv h.1]

/-- A count behind which no padding was read (R293). -/
theorem readCnt_eos {f : Nat → Cmd α} {v : Nat} (hs : s.reading) (hv : v < 67732) (h : s.holds (cntBits v)) :
    (do let n ← readCnt; eos; f n : Cmd α) s = f v (s.afterRead (cntBits v).length) :=
  read_eos_run hs h (readCnt_run hv h.1)

end

/-! ## Back-references -/

section
variable {e d s : State} {len dist line x : Nat}

/-- The counts of a back-reference are counts (R235). -/
theorem backrefSecond_bounds (h : backrefSecond e len dist line = some x) :
    x < 67732 ∧ (e.lhen = true → line < 67732) := by
  rw [backrefSecond] at h
  by_cases hcur : e.lhen = false ∨ line = 0
  · rw [if_pos hcur, Option.ite_none_left_eq_some] at h
    obtain ⟨hdist, ⟨⟩⟩ := h
    simp only [Config.minMatch, Config.countLimit] at hdist ⊢
    refine ⟨by omega, fun hl => ?_⟩
    obtain rfl : line = 0 := hcur.resolve_left (by simp [hl])
    omega
  · rw [if_neg hcur] at h
    cases hl : e.lh[line - 1]? with
    | none => rw [hl] at h; cases h
    | some l =>
      rw [hl] at h
      dsimp only at h
      rw [Option.ite_none_left_eq_some] at h
      obtain ⟨hdist, ⟨⟩⟩ := h
      simp only [Config.countLimit] at hdist
      exact ⟨by omega, fun _ => by omega⟩

theorem lands_expandBackref {l : Bool} (hs : s.reading) (hlen : len < 67732) (hx : x < 67732) (hl : s.lhen = l)
    (hline : l = true → line < 67732) (h : s.holds (cntBits len ++ (cntBits x ++ if l then cntBits line else []))) :
    Lands (expandBackref s)
      (s.roff + (cntBits len ++ (cntBits x ++ if l then cntBits line else [])).length) s := by
  obtain ⟨h1, hrest⟩ := State.holds_append.mp h
  obtain ⟨h2, h3⟩ := State.holds_append.mp hrest
  have hreading := State.reading_afterRead (State.reading_afterRead hs h1) h2
  rw [expandBackref, readCnt_bind hlen h1, readCnt_bind hx h2, Cmd.bind_run, look_run, State.afterRead_lhen,
    State.afterRead_lhen]
  dsimp only
  cases l with
  | true =>
    rw [if_pos hl, readCnt_eos hreading (hline rfl) h3, State.afterRead_afterRead, State.afterRead_afterRead]
    exact (moves_copyRef _ _ _ _).congr (by simp) rfl rfl rfl
  | false =>
    rw [if_neg (by simp [hl]), Cmd.bind_run, eos_run, hreading.1, State.afterRead_afterRead]
    exact (moves_copyRef _ _ _ _).congr (by simp) rfl rfl rfl

theorem oneToken_backref (hlen : len < 67732) (hx : x < 67732) (hline : e.lhen = true → line < 67732) :
    OneToken e id ([plainAppend e (switchBits e.preset e.curSet .dict), plainAppend e (cntBits len),
      plainAppend e (cntBits x)] ++ (if e.lhen then [plainAppend e (cntBits line)] else [])) := by
  intro d hd hbits
  have happends : appendBits ([plainAppend e (switchBits e.preset e.curSet .dict), plainAppend e (cntBits len),
      plainAppend e (cntBits x)] ++ (if e.lhen then [plainAppend e (cntBits line)] else [])) =
      switchBits d.preset d.curSet .dict ++ (cntBits len ++ (cntBits x ++ if d.lhen then cntBits line else [])) := by
    rw [hd.preset, hd.curSet, hd.lhen]
    cases e.lhen <;> simp [plainAppend]
  rw [happends] at hbits ⊢
  obtain ⟨hsw, hcounts⟩ := State.holds_append.mp hbits
  rw [fetch_switch hd.reading hsw]
  refine (lands_expandBackref (State.reading_afterRead hd.reading hsw) hlen hx (l := d.lhen) rfl
    (fun hl => hline (hd.lhen ▸ hl)) hcounts).congr ?_ ?_ ?_ hd.prevCp
  · simp [Nat.add_assoc]
  · rw [id, State.emitted]
    cases e.lhen <;> exact hd.curSet
  · rw [id, State.emitted]
    cases e.lhen <;> exact hd.upper

end

/-! ## Repeat runs -/

section
variable {e s : State} {v : Fin 28}

theorem doSymbol_rpt {set : SymSet} (h : s.preset.symbol set v = .rpt) : doSymbol set v s = expandRepeat s := by
  rw [doSymbol, Cmd.bind_run, readState_run]
  dsimp only
  rw [h]

theorem doSymbol_term {set : SymSet} (h : s.preset.symbol set v = .term) : doSymbol set v s = .error .endTerm s := by
  rw [doSymbol, Cmd.bind_run, readState_run]
  dsimp only
  rw [h]
  rfl

theorem doSymbol_crlf {set : SymSet} (h : s.preset.symbol set v = .crlf) :
    doSymbol set v s = putBytes [0x0D, 0x0A] s := by
  rw [doSymbol, Cmd.bind_run, readState_run]
  dsimp only
  rw [h]
  dsimp only
  rw [← putBytes_singleton 0x0A]
  rfl

theorem doSymbol_esc {set : SymSet} (h : s.preset.symbol set v = .esc) : doSymbol set v s = expandEsc s := by
  rw [doSymbol, Cmd.bind_run, readState_run]
  dsimp only
  rw [h]

theorem lands_expandRepeat {r : Nat} (hs : s.reading) (hr : r < 67732) (h : s.holds (cntBits r)) :
    Lands (expandRepeat s) (s.roff + (cntBits r).length) s := by
  rw [expandRepeat, readCnt_eos hs hr h]
  exact moves_repeatLast _ _

theorem oneToken_repeat {r : Nat} (hr : r < 67732) (hv : e.preset.symbol .num v = .rpt) :
    OneToken e id (switchAppend e .num .num ++ [appendIn e .num (e.preset.v v), appendIn e .num (cntBits r)]) := by
  intro d hd hbits
  have hne : v ≠ switchIndex := by rintro rfl; rw [Preset.num_esc hd.wf] at hv; cases hv
  have happends : appendBits (switchAppend e .num .num ++
      [appendIn e .num (e.preset.v v), appendIn e .num (cntBits r)]) =
      (switchUnless d .num .num ++ d.preset.v v) ++ cntBits r := by
    rw [appendBits_append, appendBits_switchAppend, switchUnless, switchUnless, hd.preset, hd.curSet]
    simp [appendIn]
  rw [happends] at hbits ⊢
  obtain ⟨hsym, hcount⟩ := State.holds_append.mp hbits
  rw [fetch_num hd.reading hne hsym, doSymbol_rpt (s := { d.afterRead _ with curSet := .num }) (hd.preset ▸ hv)]
  refine (lands_expandRepeat (s := { d.afterRead _ with curSet := .num }) (State.reading_afterRead hd.reading hsym) hr
    hcount).congr ?_ ?_ ?_ hd.prevCp
  · simp [Nat.add_assoc]
  · simp [State.emitted, appendIn]
  · simp [State.emitted, appendIn, hd.upper]

end

/-! ## The tokens behind ESC -/

/-- The token behind ESC with a sub-code (R232, R295). -/
def escToken : Nat → Cmd Unit
  | 0 => expandTemplate
  | 1 => expandHex .lower
  | 2 => expandGuid .lower
  | 3 => expandHex .upper
  | 4 => expandGuid .upper
  | _ => expandBin

theorem expandEsc_eq : expandEsc = (do let k ← readStep 5; eos; escToken k) := rfl

theorem escToken_hexSubcode (up : HexCase) : escToken (hexSubcode up) = expandHex up := by cases up <;> rfl

theorem escToken_guidSubcode (up : HexCase) : escToken (guidSubcode up) = expandGuid up := by cases up <;> rfl

section
variable {e s : State} {n : Nat} {body : BitStr}

/-- A switch to NUM, ESC and a sub-code send the automaton to the token behind ESC (R232, R295). -/
theorem fetch_esc {k : Nat} (hs : s.reading) (hk : k ≤ 5)
    (h : s.holds (switchBits s.preset s.curSet .num ++ s.preset.v switchIndex ++ stepBits k 5)) :
    fetchAndRun s = escToken k
      { s.afterRead (switchBits s.preset s.curSet .num ++ s.preset.v switchIndex ++ stepBits k 5).length with
        curSet := .num } := by
  obtain ⟨hsw, hstep⟩ := State.holds_append.mp h
  rw [fetch_switchedNum hs hsw, doSymbol_esc (s := { s.afterRead _ with curSet := .num }) (Preset.num_esc hs.2),
    expandEsc_eq]
  refine (read_eos_run (s := { s.afterRead _ with curSet := .num }) (bits := stepBits k 5)
    (State.reading_afterRead hs hsw) hstep (readStep_run hk hstep.1)).trans ?_
  rw [List.length_append (bs := stepBits k 5), ← State.afterRead_afterRead]
  rfl

/-- An escape and its payload are one token where the token behind ESC reads the payload. -/
theorem oneToken_esc {k : Nat} (bs : List BitStr) (hk : k ≤ 5)
    (h : ∀ s : State, s.reading → s.preset = e.preset → s.holds bs.flatten →
      Lands (escToken k s) (s.roff + bs.flatten.length) s) :
    OneToken e id (escAppends e k ++ bs.map (appendIn e .num)) := by
  intro d hd hbits
  have happends : appendBits (escAppends e k ++ bs.map (appendIn e .num)) =
      (switchBits d.preset d.curSet .num ++ d.preset.v switchIndex ++ stepBits k 5) ++ bs.flatten := by
    rw [hd.preset, hd.curSet, appendBits_append]
    have hbs : appendBits (bs.map (appendIn e .num)) = bs.flatten := by
      rw [appendBits, List.flatMap_map, ← List.flatMap_id]
      rfl
    rw [hbs]
    simp [escAppends, appendIn, switchIndex]
  rw [happends] at hbits ⊢
  obtain ⟨hesc, hbody⟩ := State.holds_append.mp hbits
  rw [fetch_esc hd.reading hk hesc]
  refine (h { d.afterRead _ with curSet := .num } (State.reading_afterRead hd.reading hesc) hd.preset hbody).congr
    ?_ ?_ ?_ hd.prevCp
  · simp [Nat.add_assoc]
  · rw [id, State.emitted_escAppends_append]
  · rw [id, State.emitted_escAppends_append]
    exact hd.upper

theorem lands_expandHex {up : HexCase} (hs : s.reading) (h0 : n ≠ 0) (hn : n < 67732) (hbody : body.length = 4 * n)
    (h : s.holds (cntBits n ++ body)) : Lands (expandHex up s) (s.roff + (cntBits n ++ body).length) s := by
  rw [expandHex, readCnt_eos hs hn (State.holds_append.mp h).1, Cmd.bind_run, require_run, if_pos h0]
  exact (moves_hexLoop up n _).congr (by simp [hbody, Nat.add_assoc]) rfl rfl rfl

theorem lands_expandBin (hs : s.reading) (h0 : n ≠ 0) (hn : n < 67732) (hbody : body.length = 8 * n)
    (h : s.holds (cntBits n ++ body)) : Lands (expandBin s) (s.roff + (cntBits n ++ body).length) s := by
  rw [expandBin, readCnt_eos hs hn (State.holds_append.mp h).1, Cmd.bind_run, require_run, if_pos h0]
  exact (moves_binLoop n _).congr (by simp [hbody, Nat.add_assoc]) rfl rfl rfl

theorem lands_expandTemplate {idx m : Nat} {t : ByteStr} (hs : s.reading) (ht : templateOf s.preset idx = some t)
    (hidx : idx ≤ 4) (hm : m ≤ t.length) (hrem : t.length - m < 67732)
    (hbody : body.length = (placeholderWidths (t.take m)).sum)
    (h : s.holds (stepBits idx 4 ++ (cntBits (t.length - m) ++ body))) :
    Lands (expandTemplate s) (s.roff + (stepBits idx 4 ++ (cntBits (t.length - m) ++ body)).length) s := by
  obtain ⟨hstep, hrest⟩ := State.holds_append.mp h
  rw [expandTemplate, Cmd.bind_run, readStep_run hidx hstep.1]
  dsimp only
  rw [readCnt_eos (State.reading_afterRead hs hstep) hrem (State.holds_append.mp hrest).1, Cmd.bind_run, look_run]
  dsimp only
  rw [State.afterRead_preset, State.afterRead_preset, ht]
  dsimp only
  rw [Cmd.bind_run, require_run, if_pos (Nat.sub_le _ _), Nat.sub_sub_self hm]
  exact (moves_templateLoop _ _).congr (by simp [hbody, Nat.add_assoc]) rfl rfl rfl

end

/-! ## Deltas -/

section
variable {e s : State} {cp : Nat}

/-- The difference of two codepoints is a delta (R201, R205). -/
theorem natAbs_codepoints {prev : Nat} (hprev : prev ≤ Config.cpMax) (hcp : codepointOk cp) :
    ((cp : Int) - (prev : Int)).natAbs < 2183232 := by
  simp only [codepointOk, Config.cpMax] at hprev hcp
  omega

theorem lands_deltaMagnitude (hcp : codepointOk cp) :
    Lands (deltaMagnitude ((cp : Int) - (s.prevCp : Int)) s) s.roff { s with prevCp := cp } := by
  have hsum : (s.prevCp : Int) + ((cp : Int) - (s.prevCp : Int)) = cp := by omega
  rw [deltaMagnitude, Cmd.bind_run, look_run]
  dsimp only
  rw [hsum, Int.toNat_natCast, Cmd.bind_run, require_run, if_pos hcp]
  exact moves_putBytes (utf8 cp) { s with prevCp := cp }

theorem oneToken_delta (hset : e.curSet = .delta) (hcp : codepointOk cp) :
    OneToken e (fun t => { t with prevCp := cp }) [plainAppend e (deltaBits ((cp : Int) - (e.prevCp : Int)))] := by
  intro d hd hbits
  rw [appendBits_cons, appendBits_nil, List.append_nil] at hbits ⊢
  have hread := readDeltaHead_delta (natAbs_codepoints hd.codepoint hcp) hbits.1
  rw [plainAppend] at hbits ⊢
  rw [fetch_delta hd.reading (hd.curSet.trans hset) (by simp [deltaBits, deltaCode]) hbits hread, ← hd.prevCp]
  exact (lands_deltaMagnitude (s := d.afterRead _) hcp).congr rfl hd.curSet hd.upper rfl

theorem oneToken_uni1 (hset : e.curSet ≠ .delta) (hcp : codepointOk cp) :
    OneToken e (fun t => { t with prevCp := cp }) [plainAppend e (e.preset.v switchIndex ++ e.preset.h .delta),
      plainAppend e (deltaBits ((cp : Int) - (e.prevCp : Int)))] := by
  intro d hd hbits
  have hswitch : e.preset.v switchIndex ++ e.preset.h .delta = switchBits d.preset d.curSet .delta := by
    rw [hd.preset, hd.curSet]
    cases hc : e.curSet with
    | delta => exact absurd hc hset
    | alpha => rfl
    | num => rfl
  rw [appendBits_cons, appendBits_cons, appendBits_nil, List.append_nil, plainAppend, plainAppend, hswitch] at hbits ⊢
  obtain ⟨hsw, hdelta⟩ := State.holds_append.mp hbits
  have hread := readDeltaHead_delta (natAbs_codepoints hd.codepoint hcp) hdelta.1
  rw [fetch_switch hd.reading hsw, doTail, Cmd.bind_run, look_run]
  dsimp only
  rw [if_neg (show ¬ (d.afterRead _).curSet = .delta from fun hc => hset (hd.curSet ▸ hc)), transientDelta,
    read_eos_run (State.reading_afterRead hd.reading hsw) hdelta hread, ← hd.prevCp]
  refine (lands_deltaMagnitude (s := (d.afterRead _).afterRead _) hcp).congr ?_ hd.curSet hd.upper rfl
  simp [Nat.add_assoc]

end

end Sys2Proof.Machine
end

section
/-!
What each token command sends, by the branches of its pseudocode, and the decoder in lock step with it (R152 to R162, R205,
R210, R235 to R259, R382, R383).
-/

namespace Sys2Proof.Machine

/-! ## What a command sends -/

/-- A piece of an encoder's pseudocode raises a status before it does anything, or makes appends that have a property and
then writes results. -/
def Sends (Q : (State → State) → List BitAppend → Prop) (s : State) (c : Cmd Unit) : Prop :=
  (∃ x, x ≠ .ok ∧ c s = .error x s) ∨
    ∃ fin as, (∀ t, (fin t).out = t.out ∧ (fin t).woff = t.woff) ∧ Emits fin s as c ∧ Q fin as

/-- A command of ENC mode whose pseudocode sends appends with a property. -/
def CommandSends (Q : (State → State) → List BitAppend → Prop) (i : Instr) (e : State) : Prop :=
  ∃ body, exec i e = modeCommand .enc body e ∧ Sends Q e body

section
variable {Q : (State → State) → List BitAppend → Prop} {s e e' d : State} {α : Type} {as : List BitAppend} {i : Instr}

theorem Sends.emits {c : Cmd Unit} (h : Emits id s as c) (hQ : Q id as) : Sends Q s c :=
  .inr ⟨id, as, fun _ => ⟨rfl, rfl⟩, h, hQ⟩

theorem Sends.look {f : State → α} {k : α → Cmd Unit} (h : Sends Q s (k (f s))) : Sends Q s (Machine.look f >>= k) :=
  h.imp id fun ⟨fin, as, hfin, he, hQ⟩ => ⟨fin, as, hfin, .look he, hQ⟩

theorem Sends.readState {k : State → Cmd Unit} (h : Sends Q s (k s)) : Sends Q s (Machine.readState >>= k) :=
  h.imp id fun ⟨fin, as, hfin, he, hQ⟩ => ⟨fin, as, hfin, .readState he, hQ⟩

theorem Sends.raise {x : Status} (hx : x ≠ .ok) : Sends Q s (Machine.raise x) := .inl ⟨x, hx, rfl⟩

theorem Sends.require {c : Prop} [Decidable c] {x : Status} {k : Unit → Cmd Unit} (hx : x ≠ .ok)
    (h : c → Sends Q s (k ())) : Sends Q s (Machine.require c x >>= k) := by
  by_cases hc : c
  · refine (h hc).imp (fun ⟨y, hy, hk⟩ => ⟨y, hy, ?_⟩) fun ⟨fin, as, hfin, he, hQ⟩ => ⟨fin, as, hfin, .require hc he, hQ⟩
    rw [Cmd.bind_run, require_run, if_pos hc]
    exact hk
  · exact .inl ⟨x, hx, by rw [Cmd.bind_run, require_run, if_neg hc]⟩

theorem Sends.ite {c : Prop} [Decidable c] {x y : Cmd Unit} (hx : c → Sends Q s x) (hy : ¬ c → Sends Q s y) :
    Sends Q s (if c then x else y) := by
  split
  case isTrue hc => exact hx hc
  case isFalse hc => exact hy hc

/-- A command that ends OK has made the appends that its pseudocode sends, and another block holds their bits. -/
theorem CommandSends.sent (h : CommandSends Q i e) (he : e.canEncode) (hout : e.out.wf = true)
    (hexec : exec i e = .next e') (hok : e'.status = .ok) (hc : carries e e' d) :
    ∃ fin as, Q fin as ∧ e' = { fin (e.emitted as) with status := .ok } ∧
      e'.woff = e.woff + (appendBits as).length ∧ d.holds (appendBits as) := by
  obtain ⟨body, hbody, ⟨x, hx, hraise⟩ | ⟨fin, as, hfin, hemits, hQ⟩⟩ := h
  · rw [hbody, modeCommand_raises he hraise] at hexec
    cases hexec
    exact absurd hok hx
  · obtain ⟨hstate, hbits⟩ := sent_of_emits hout (hbody.trans (modeCommand_emits he hemits)) hexec hok hfin hc
    refine ⟨fin, as, hQ, hstate, ?_, hbits⟩
    rw [hstate]
    exact (hfin (e.emitted as)).2

end

/-! ## The places of the symbols -/

section
variable {p : Preset} {set : SymSet} {y : Symbol}

/-- The one place of a symbol holds it. -/
theorem Preset.symbol_indexIn (h : (p.placesIn set y).length = 1) : p.symbol set (p.indexIn set y) = y := by
  obtain ⟨v, hv⟩ := List.length_eq_one_iff.mp h
  rw [Preset.indexIn_of_placesIn hv]
  exact Preset.mem_placesIn.mp (hv ▸ List.mem_singleton_self v)

theorem Preset.num_term (hw : p.wf = true) : p.symbol .num (p.indexIn .num .term) = .term := by
  simp only [Preset.wf, Preset.wfSpecials, Bool.and_eq_true, decide_eq_true_eq] at hw
  exact Preset.symbol_indexIn hw.1.2.2

/-- Each line-control symbol has one place in SYM. -/
theorem controlSymbol_placed (h : symbolsPlaced p) (k : Nat) : (p.placesIn .sym (controlSymbol k)).length = 1 := by
  obtain ⟨-, hlf, hcrlf, htab, hcr, -⟩ := h
  match k with
  | 0 => exact of_decide_eq_true hlf
  | 1 => exact of_decide_eq_true hcrlf
  | 2 => exact of_decide_eq_true htab
  | _ + 3 => exact of_decide_eq_true hcr

/-- A line-control symbol outputs its bytes (R156, R295). -/
theorem doSymbol_controlSymbol (k : Nat) {v : Fin 28} (h : p.symbol .sym v = controlSymbol k) :
    ∃ bs, ∀ s : State, s.preset = p → doSymbol .sym v s = putBytes bs s := by
  match k with
  | 0 => exact ⟨[0x0A], fun s hs => doSymbol_chr_of_ne_alpha (by decide) (hs ▸ h)⟩
  | 1 => exact ⟨[0x0D, 0x0A], fun s hs => doSymbol_crlf (hs ▸ h)⟩
  | 2 => exact ⟨[0x09], fun s hs => doSymbol_chr_of_ne_alpha (by decide) (hs ▸ h)⟩
  | _ + 3 => exact ⟨[0x0D], fun s hs => doSymbol_chr_of_ne_alpha (by decide) (hs ▸ h)⟩

/-- A placed frequent substring has its pair in SYM or in NUM (R253). -/
theorem Preset.pairOf_freq {i : Fin 6} (h : freqPlaced p i = true) :
    ∃ v, (p.pairOf (.freq i) = (.sym, v) ∧ p.symbol .sym v = .freq i) ∨
      (p.pairOf (.freq i) = (.num, v) ∧ p.symbol .num v = .freq i) := by
  have hpair {q : SymSet × Fin 28} (hq : p.places (.freq i) = [q]) : p.pairOf (.freq i) = q ∧ p.symbol q.1 q.2 = .freq i :=
    ⟨Preset.pairOf_of_places hq, Preset.mem_places.mp (hq ▸ List.mem_singleton_self q)⟩
  rw [freqPlaced] at h
  split at h
  case h_1 v hv => exact ⟨v, .inl (hpair hv)⟩
  case h_2 v hv => exact ⟨v, .inr (hpair hv)⟩
  case h_3 => cases h

theorem doSymbol_freq_some {i : Fin 6} {v : Fin 28} {bs : ByteStr} {s : State} (h : s.preset.symbol set v = .freq i)
    (hf : s.preset.freq[i] = some bs) : doSymbol set v s = putBytes bs s :=
  (doSymbol_freq h).trans (expandFreq_some hf)

end

/-! ## The lengths of the payloads -/

theorem length_hexFields (xs : List Nat) : (hexFields xs).length = 4 * xs.length := by
  simp [hexFields, List.length_flatMap, field_length, Nat.mul_comm]

theorem length_byteBits (bs : ByteStr) : (byteBits bs).length = 8 * bs.length := by
  simp [byteBits, List.length_flatMap, field_length, Nat.mul_comm]

theorem length_of_allDefined {α : Type} {l : List (Option α)} {xs : List α} (h : allDefined l = some xs) :
    xs.length = l.length := by
  induction l generalizing xs with
  | nil => cases h; rfl
  | cons x l ih =>
    cases x with
    | none => cases h
    | some x =>
      obtain ⟨ys, hys, rfl⟩ := Option.map_eq_some_iff.mp h
      rw [List.length_cons, List.length_cons, ih hys]

/-- A hex run has a digit per byte (R243). -/
theorem length_of_hexValues {bs : ByteStr} {up : HexCase} {xs : List Nat} (h : hexValues bs up = some xs) :
    xs.length = bs.length := by
  rw [length_of_allDefined h, List.length_map]

/-- A GUID has a digit per offset that is no hyphen (R245). -/
theorem length_of_guidValues {up : HexCase} {k : Nat} {bs : ByteStr} {xs : List Nat}
    (h : guidValues up k bs = some xs) : xs.length = (List.range' k bs.length).countP (fun j => !guidHyphen j) := by
  induction bs generalizing k xs with
  | nil => cases h; rfl
  | cons b bs ih =>
    rw [guidValues] at h
    rw [List.length_cons, List.range'_succ, List.countP_cons]
    by_cases hk : guidHyphen k = true
    · rw [if_pos hk] at h
      by_cases hb : b = 0x2D
      · rw [if_pos hb] at h
        rw [ih h, hk]
        rfl
      · rw [if_neg hb] at h
        cases h
    · rw [if_neg hk] at h
      cases hx : hexVal b up with
      | none => rw [hx] at h; cases h
      | some x =>
        rw [hx] at h
        obtain ⟨ys, hys, rfl⟩ := Option.map_eq_some_iff.mp h
        rw [List.length_cons, ih hys, if_pos (by simp [hk])]

/-- Bytes that match a template fill its placeholders' fields (R249). -/
theorem length_fieldsOf {ts bs : ByteStr} (hlen : ts.length = bs.length) (h : templateMatches ts bs = true) :
    (fieldsOf (placeholderWidths ts) (templateValues ts bs)).length = (placeholderWidths ts).sum := by
  induction ts generalizing bs with
  | nil => rfl
  | cons t ts ih =>
    match bs, hlen with
    | b :: bs, hlen =>
      rw [templateMatches, Bool.and_eq_true] at h
      have hrest := ih (by simpa using hlen) h.2
      rw [placeholderWidths, templateValues]
      cases hw : letterWidth t with
      | none => rw [letterDigit_literal hw]; exact hrest
      | some w =>
        have hletter := h.1
        rw [letterMatches, hw] at hletter
        obtain ⟨x, hx⟩ := Option.isSome_iff_exists.mp hletter
        rw [hx]
        dsimp only
        rw [fieldsOf, List.length_append, field_length, hrest, List.sum_cons]

/-! ## The commands of one token -/

section
variable {e : State}

/-- The switch to ALPHA from another resting set. -/
theorem oneToken_toAlpha (hw : e.preset.wf = true) (hc : e.curSet ≠ .alpha) :
    OneToken e id [appendIn e .alpha (switchBits e.preset e.curSet .alpha)] :=
  Token.oneToken (by simpa [appendIn, State.emitted] using token_toAlpha hw hc)

theorem sends_pcSw (hw : e.preset.wf = true) : CommandSends (OneToken e) .pcSw e :=
  ⟨_, rfl, .look <| .look <| .require (by decide) fun ⟨_, hc⟩ =>
    .emits (emits_emitSW e .alpha) (oneToken_toAlpha hw hc)⟩

/-- The switch to SYM and a symbol of it that outputs bytes. -/
theorem oneToken_sym {v : Fin 28} {bs : ByteStr} (hw : e.preset.wf = true)
    (h : ∀ s : State, s.preset = e.preset → doSymbol .sym v s = putBytes bs s) :
    OneToken e id [plainAppend e (switchBits e.preset e.curSet .sym), plainAppend e (e.preset.v v)] :=
  Token.oneToken (by simpa [plainAppend, State.emitted] using token_sym hw h)

/-- A symbol of NUM that outputs bytes, with the switch to NUM unless NUM is the resting set. -/
theorem oneToken_num {v : Fin 28} {bs : ByteStr} (hw : e.preset.wf = true) (hv : v ≠ switchIndex)
    (h : ∀ s : State, s.preset = e.preset → doSymbol .num v s = putBytes bs s) :
    OneToken e id (switchAppend e .num .num ++ [appendIn e .num (e.preset.v v)]) :=
  SpelledBy.oneToken (.of_tokens (by rw [appendBits_switchAppend]; exact (token_num hw hv h).tokens))

theorem oneToken_escape {k : Nat} (hset : e.curSet = .delta) (hk : k ≤ 4) (hne : k ≠ 1) :
    OneToken e id [plainAppend e (escapeBits k)] := by
  refine Token.oneToken (bs := [escapeByte k]) ?_
  have ht := token_escape (p := e.preset) (u := e.upper) hk hne
  rw [← hset] at ht
  simpa [plainAppend, State.emitted] using ht

theorem sends_pcCtrl (hw : e.preset.wf = true) (hp : symbolsPlaced e.preset) : CommandSends (OneToken e) .pcCtrl e := by
  obtain ⟨bs, hbs⟩ :=
    doSymbol_controlSymbol e.a0.toNat (Preset.symbol_indexIn (controlSymbol_placed hp e.a0.toNat))
  exact ⟨_, rfl, .look <| .require (by decide) fun _ => .readState <| .ite
    (fun ⟨_, hset⟩ => .emits (emits_putBits _ ⟨rfl, rfl⟩) (oneToken_escape hset (by omega) (by omega)))
    fun _ => .emits ((emits_emitSW e .sym).bind (emits_emitV _ (State.emitted_single_modes _ _))) (oneToken_sym hw hbs)⟩

theorem sends_udlEnc : CommandSends (OneToken e) .udlEnc e :=
  ⟨_, rfl, .look <| .look <| .require (by decide) fun hset => .require (by decide) fun hcp =>
    .inr ⟨fun t => { t with prevCp := e.a0.toNat }, [plainAppend e (deltaBits ((e.a0.toNat : Int) - e.prevCp))],
      fun _ => ⟨rfl, rfl⟩, emits_emitDelta _ ⟨rfl, rfl⟩ rfl, oneToken_delta hset hcp⟩⟩

theorem sends_udlEsc (hw : e.preset.wf = true) : CommandSends (OneToken e) .udlEsc e :=
  ⟨_, rfl, .look <| .look <| .look <| .require (by decide) fun hset => .require (by decide) fun hk => .ite
    (fun _ => .require (by decide) fun _ => .emits (emits_emitSW e .alpha)
      (oneToken_toAlpha hw (by rw [hset]; decide)))
    fun hne => .emits (emits_putBits _ ⟨rfl, rfl⟩) (oneToken_escape hset hk hne)⟩

theorem sends_tkBackref : CommandSends (OneToken e) .tkBackref e := by
  refine ⟨_, rfl, .look <| .look <| .look <| .require (by decide) fun hlen => .look ?_⟩
  cases hx : backrefSecond e e.a0.toNat e.a1.toNat e.a2.toNat with
  | none => exact .raise (by decide)
  | some x =>
    obtain ⟨hcount, hline⟩ := backrefSecond_bounds hx
    exact .emits ((emits_emitSW e .dict).bind <| (emits_putBits _ (State.emitted_single_modes _ _)).bind <|
        (emits_putBits _ (State.emitted_single_modes _ _)).bind <|
          emits_lineIndex (State.emitted_single_modes _ _) (by simp only [State.emitted_lhen]))
      (oneToken_backref hlen.2 hcount hline)

theorem sends_tkRepeat (hp : symbolsPlaced e.preset) : CommandSends (OneToken e) .tkRepeat e := by
  have hemits := (emits_emitNUM e (e.preset.indexIn .num .rpt)).bind (fin := id)
    (f := fun _ => putBits (cntBits (e.a0.toNat - 4))) (emits_putBits _ (e.emitted_concat_modes _ _))
  rw [List.append_assoc] at hemits
  exact ⟨_, rfl, .look <| .require (by decide) fun hr => .look <|
    .emits hemits (oneToken_repeat hr.2 (Preset.symbol_indexIn hp.1))⟩

theorem sends_tkHex : CommandSends (OneToken e) .tkHex e := by
  refine ⟨_, rfl, .look <| .look <| .look <| .readState ?_⟩
  cases caseOfNumber e.a2.toNat with
  | none => exact .raise (by decide)
  | some up =>
    refine .require (by decide) fun ⟨hlo, hhi, _⟩ => ?_
    cases hxs : hexValues (runOf e e.a0.toNat e.a1.toNat) up with
    | none => exact .raise (by decide)
    | some xs =>
      have hlen : (hexFields xs).length = 4 * e.a1.toNat := by
        rw [length_hexFields, length_of_hexValues hxs, runOf, Memory.length_slice]
      refine .emits ((emits_emitESC e _).bind <| emits_putBits_bind (e.emitted_escAppends_modes _) fun _ ht =>
        emits_putBits _ ht) (oneToken_esc [cntBits e.a1.toNat, hexFields xs] (by cases up <;> decide) ?_)
      intro s hs _ hbits
      rw [escToken_hexSubcode]
      simp only [List.flatten_cons, List.flatten_nil, List.append_nil] at hbits ⊢
      exact lands_expandHex hs (by omega) hhi hlen hbits

theorem sends_tkGuid : CommandSends (OneToken e) .tkGuid e := by
  refine ⟨_, rfl, .look <| .look <| .readState ?_⟩
  cases caseOfNumber e.a1.toNat with
  | none => exact .raise (by decide)
  | some up =>
    refine .require (by decide) fun _ => ?_
    cases hxs : guidValues up 0 (runOf e e.a0.toNat 36) with
    | none => exact .raise (by decide)
    | some xs =>
      have hdigits : xs.length = 32 := by
        rw [length_of_guidValues hxs, runOf, Memory.length_slice]
        rfl
      refine .emits ((emits_emitESC e _).bind <| emits_putBits _ (e.emitted_escAppends_modes _))
        (oneToken_esc [hexFields xs] (by cases up <;> decide) ?_)
      intro s _ _ _
      rw [escToken_guidSubcode, List.flatten_cons, List.flatten_nil, List.append_nil, length_hexFields, hdigits]
      exact moves_guidLoop up 0 32 s

theorem sends_tkTmpl : CommandSends (OneToken e) .tkTmpl e := by
  refine ⟨_, rfl, .look <| .look <| .look <| .readState ?_⟩
  cases ht : templateOf e.preset e.a0.toNat with
  | none => exact .raise (by decide)
  | some t =>
    refine .require (by decide) fun ⟨_, hm, _, hrem⟩ => .require (by decide) fun hmatch => ?_
    have hidx : e.a0.toNat ≤ 4 := by
      by_contra hlarge
      rw [templateOf, dif_neg (by omega)] at ht
      cases ht
    have hlen := length_fieldsOf (by rw [List.length_take_of_le hm, runOf, Memory.length_slice]) hmatch
    refine .emits ((emits_emitESC e 0).bind <| emits_putBits_bind (e.emitted_escAppends_modes 0) fun _ h =>
      emits_putBits_bind h fun _ h => emits_putBits _ h) (oneToken_esc [_, _, _] (by decide) ?_)
    intro s hs hp hbits
    simp only [List.flatten_cons, List.flatten_nil, List.append_nil] at hbits ⊢
    exact lands_expandTemplate hs (hp ▸ ht) hidx hm hrem hlen hbits

theorem sends_tkBin : CommandSends (OneToken e) .tkBin e := by
  refine ⟨_, rfl, .look <| .look <| .readState <| .require (by decide) fun ⟨hlo, hhi, _⟩ =>
    .emits ((emits_emitESC e 5).bind <| emits_putBits_bind (e.emitted_escAppends_modes 5) fun _ ht => emits_putBits _ ht)
      (oneToken_esc [cntBits e.a1.toNat, byteBits (runOf e e.a0.toNat e.a1.toNat)] (by decide) ?_)⟩
  intro s hs _ hbits
  simp only [List.flatten_cons, List.flatten_nil, List.append_nil] at hbits ⊢
  exact lands_expandBin hs (by omega) hhi (by rw [length_byteBits, runOf, Memory.length_slice]) hbits

theorem sends_tkFreq (hw : e.preset.wf = true) (hp : symbolsPlaced e.preset) : CommandSends (OneToken e) .tkFreq e := by
  refine ⟨_, rfl, .look <| .look <| .require (by decide) fun hsome => ?_⟩
  have hi : e.a0.toNat < 6 := by
    by_contra hlarge
    rw [freqOf, dif_neg hlarge] at hsome
    cases hsome
  obtain ⟨bs, hbs⟩ := Option.isSome_iff_exists.mp ((freqOf_eq e.preset ⟨e.a0.toNat, hi⟩) ▸ hsome)
  rw [freqSymbol_eq ⟨e.a0.toNat, hi⟩]
  obtain ⟨-, -, -, -, -, hfreq⟩ := hp
  have hsymbol {set : SymSet} {v : Fin 28} (hv : e.preset.symbol set v = .freq ⟨e.a0.toNat, hi⟩) (s : State)
      (hs : s.preset = e.preset) : doSymbol set v s = putBytes bs s :=
    doSymbol_freq_some (hs ▸ hv) (by rw [hs]; exact hbs)
  obtain ⟨v, ⟨hpair, hv⟩ | ⟨hpair, hv⟩⟩ := Preset.pairOf_freq (hfreq ⟨e.a0.toNat, hi⟩)
  · rw [hpair]
    exact .emits ((emits_emitSW e .sym).bind (emits_emitV _ (State.emitted_single_modes _ _)))
      (oneToken_sym hw (hsymbol hv))
  · rw [hpair]
    exact .emits (emits_emitNUM e v)
      (oneToken_num hw (by rintro rfl; rw [Preset.num_esc hw] at hv; cases hv) (hsymbol hv))

theorem sends_tkUni1 : CommandSends (OneToken e) .tkUni1 e :=
  ⟨_, rfl, .look <| .readState <| .require (by decide) fun hset => .require (by decide) fun hcp =>
    .inr ⟨fun t => { t with prevCp := e.a0.toNat }, [plainAppend e (e.preset.v switchIndex ++ e.preset.h .delta),
      plainAppend e (deltaBits ((e.a0.toNat : Int) - e.prevCp))], fun _ => ⟨rfl, rfl⟩,
      (emits_putBits _ ⟨rfl, rfl⟩).bind (emits_emitDelta _ (State.emitted_single_modes _ _) (e.emitted_prevCp _)),
      oneToken_uni1 hset hcp⟩⟩

end

end Sys2Proof.Machine
end

section
/-!
The commands of several tokens and the terminator, and the automaton in lock step with every token command (R158 to R162,
R292, R295).
-/

namespace Sys2Proof.Machine

/-! ## The commands that only move the modes -/

/-- Appends of an encoder are at most three tokens that output nothing, and one token under a condition. -/
def ModesSpelled (one : Prop) (e : State) (fin : State → State) (as : List BitAppend) : Prop :=
  fin = id ∧ ∃ n, n ≤ 3 ∧ (one → n = 1) ∧ SpelledBy e n as []

section
variable {e e' d : State}

/-- A token that ALPHA executes without output, behind the switch to ALPHA. -/
theorem modesSpelled_fromAlpha {a : BitAppend} (hw : e.preset.wf = true)
    (h : Token e.preset .alpha e.upper a.bits [] a.set a.upper) :
    ModesSpelled (e.curSet = .alpha) e id (switchAppend e .alpha .alpha ++ [a]) := by
  obtain ⟨n, hn, hzero, hswitch⟩ := tokens_switchAlpha hw
  refine ⟨rfl, n + 1, by omega, fun hset => by rw [hzero hset], .of_tokens ?_⟩
  rw [appendBits_switchAppend]
  exact hswitch.append h.tokens

theorem sends_upperOn (hw : e.preset.wf = true) : Sends (ModesSpelled (e.curSet = .alpha) e) e upperOnCommand :=
  .look <| .require (by decide) fun hu => .emits
    ((emits_emitSWUnless_alpha e).bind <| .look <| emits_thenUpper (s := e.emitted (switchAppend e .alpha .alpha)) _ true
      (e.emitted_switchAppend_modes _ _).1)
    (modesSpelled_fromAlpha hw (hu ▸ token_upperOn hw))

theorem sends_upperOff (hw : e.preset.wf = true) : Sends (ModesSpelled (e.curSet = .alpha) e) e upperOffCommand :=
  .look <| .require (by decide) fun hu => .emits
    ((emits_emitSWUnless_alpha e).bind <| .look <| emits_thenUpper (s := e.emitted (switchAppend e .alpha .alpha)) _ false
      (e.emitted_switchAppend_modes _ _).1)
    (modesSpelled_fromAlpha hw (hu ▸ token_upperOff hw))

theorem sends_pcUpper (hw : e.preset.wf = true) : CommandSends (ModesSpelled (e.curSet = .alpha) e) .pcUpper e :=
  ⟨_, rfl, .look <| .ite (fun _ => sends_upperOn hw) fun _ => .ite (fun _ => sends_upperOff hw) fun _ =>
    .raise (by decide)⟩

/-- The entry into DELTA is the switch to ALPHA, the end of all-uppercase mode, and the shifted space (R160). -/
theorem enterd_spelled (hw : e.preset.wf = true) :
    ModesSpelled (e.curSet = .alpha ∧ e.upper = false) e id (switchAppend e .alpha .alpha ++
      (if e.upper then [⟨shiftBits e.preset, .alpha, false⟩] else []) ++
        [⟨shiftBits e.preset ++ e.preset.v spaceIndex, .delta, false⟩]) := by
  obtain ⟨n, hn, hzero, hplain⟩ := tokens_plainAlpha hw
  exact ⟨rfl, n + 1, by omega, fun ⟨hset, hu⟩ => by rw [hzero hset hu],
    .of_tokens (hplain.append (token_enterDelta hw).tokens)⟩

theorem execPcEnterd_sent (he : e.canEncode) (hout : e.out.wf = true) (hw : e.preset.wf = true)
    (hexec : exec .pcEnterd e = .next e') (hok : e'.status = .ok) (hc : carries e e' d) :
    ∃ as, ModesSpelled (e.curSet = .alpha ∧ e.upper = false) e id as ∧ e' = { e.emitted as with status := .ok } ∧
      d.holds (appendBits as) := by
  by_cases hset : e.curSet = .delta
  · rw [execPcEnterd_refused he hset] at hexec
    cases hexec
    cases hok
  · exact ⟨_, enterd_spelled hw, sent_of_emits hout (execPcEnterd_emits he hset) hexec hok (fun _ => ⟨rfl, rfl⟩) hc⟩

theorem execPcUpper_sent (he : e.canEncode) (hout : e.out.wf = true) (hw : e.preset.wf = true)
    (hexec : exec .pcUpper e = .next e') (hok : e'.status = .ok) (hc : carries e e' d) :
    ∃ as, ModesSpelled (e.curSet = .alpha) e id as ∧ e' = { e.emitted as with status := .ok } ∧
      d.holds (appendBits as) := by
  obtain ⟨fin, as, hspelled, hstate, -, hbits⟩ := (sends_pcUpper hw).sent he hout hexec hok hc
  obtain rfl := hspelled.1
  exact ⟨as, hspelled, hstate, hbits⟩

theorem ModesSpelled.oneToken {one : Prop} {as : List BitAppend} (h : ModesSpelled one e id as) (hone : one) :
    OneToken e id as := by
  obtain ⟨-, n, -, h1, hspelled⟩ := h
  obtain rfl := h1 hone
  exact hspelled.oneToken

end

/-! ## The decoder's steps -/

/-- A state of the decoder behind what an encoder has sent, in the encoder's modes. -/
structure CaughtUp (e' d' : State) : Prop where
  roff : d'.roff = e'.woff
  curSet : d'.curSet = e'.curSet
  upper : d'.upper = e'.upper
  prevCp : d'.prevCp = e'.prevCp

section
variable {e e' d d' : State} {fin : State → State} {as : List BitAppend} {bs : ByteStr}

/-- The step on one token that ends OK has caught up with the command that sent it. -/
theorem OneToken.caughtUp (h : OneToken e fin as) (hd : Peer e d) (hc : carries e e' d)
    (hstate : e' = { fin (e.emitted as) with status := .ok }) (hwoff : e'.woff = e.woff + (appendBits as).length)
    (hbits : d.holds (appendBits as)) (hstep : exec .decStep d = .next d') (hok : d'.status = .ok) : CaughtUp e' d' := by
  have hlands := h d hd hbits
  cases hrun : fetchAndRun d with
  | ok _ t =>
    rw [execDecStep_ok hd.running hrun] at hstep
    cases hstep
    rw [hrun] at hlands
    obtain ⟨hoff, hset, hupper, hcp⟩ := hlands
    refine ⟨?_, ?_, ?_, ?_⟩
    · rw [hwoff, ← hc.1]
      exact hoff
    all_goals rw [hstate]; assumption
  | error x t =>
    rw [execDecStep_error hd.running hrun] at hstep
    cases hstep
    rw [hrun] at hlands
    exact absurd hok hlands

/-- Several tokens: the decoder catches up without a halt, and has output their bytes. -/
theorem SpelledBy.decodeTo {n : Nat} (h : SpelledBy e n as bs) (hn : n ≤ 3) (hd : Peer e d)
    (hbits : d.holds (appendBits as)) (hroom : bs = [] ∨ d.room bs.length) (hoff : d.roff = e.woff) :
    (d.decodeTo (e.emitted as).woff 3).halt = .run ∧ CaughtUp (e.emitted as) (d.decodeTo (e.emitted as).woff 3) ∧
      (d.decodeTo (e.emitted as).woff 3).out = d.out.fill d.opos bs ∧
      (d.decodeTo (e.emitted as).woff 3).opos = d.opos + bs.length := by
  rw [SpelledBy, ← hd.preset, ← hd.curSet, ← hd.upper] at h
  have htarget : d.roff + (appendBits as).length = (e.emitted as).woff := by rw [hoff, State.emitted_woff]
  obtain ⟨r, x, hrun⟩ := h.decodeTo hd.running hd.reading.2 hbits hroom htarget hn
  rw [hrun]
  exact ⟨hd.running.2.1, ⟨htarget, rfl, rfl, hd.prevCp⟩, rfl, rfl⟩

/-- The padding's append keeps the modes, and has the bits of the padding. -/
theorem emitted_padding {body : List BitAppend} {c : Resting} {n : Nat} (b : Bool)
    (hbody : (e.emitted body).curSet = c ∧ (e.emitted body).upper = e.upper) :
    (e.emitted (body ++ (if n = 0 then [] else [appendIn e c (List.replicate n b)]))).curSet = c ∧
      (e.emitted (body ++ (if n = 0 then [] else [appendIn e c (List.replicate n b)]))).upper = e.upper ∧
      (e.emitted (body ++ (if n = 0 then [] else [appendIn e c (List.replicate n b)]))).woff =
        e.woff + (appendBits body).length + n := by
  by_cases hn : n = 0
  · rw [if_pos hn, List.append_nil, hn]
    exact ⟨hbody.1, hbody.2, rfl⟩
  · obtain ⟨hset, hupper⟩ := e.emitted_concat_modes body (appendIn e c (List.replicate n b))
    rw [if_neg hn]
    exact ⟨hset, hupper, by simp [appendIn, Nat.add_assoc]⟩

/-- The terminator halts the automaton before its padding (R161, R162, R295). -/
theorem term_lockStep (hd : Peer e d) (he : e.canEncode) (hout : e.out.wf = true) (hexec : exec .pcTerm e = .next e')
    (hok : e'.status = .ok) (hc : carries e e' d) :
    ∃ d', exec .decStep d = .next d' ∧ d'.halt = .endTerm ∧ d'.roff ≤ e'.woff ∧ e'.woff < d'.roff + 8 ∧
      d'.curSet = e'.curSet ∧ d'.upper = e'.upper ∧ d'.prevCp = e'.prevCp := by
  have hv := Preset.num_term hd.wf
  generalize e.preset.indexIn .num .term = v at hv
  have hne : v ≠ switchIndex := by rintro rfl; rw [Preset.num_esc hd.wf] at hv; cases hv
  obtain ⟨body, hbody⟩ : ∃ body, body = switchAppend e .num .num ++ [appendIn e .num (e.preset.v v)] := ⟨_, rfl⟩
  obtain ⟨n, hn⟩ : ∃ n, n = (8 - (e.woff + (appendBits body).length) % 8) % 8 := ⟨_, rfl⟩
  obtain ⟨hstate, hbits⟩ :=
    sent_of_emits hout (execPcTerm_emits he hd.wf hout hv hbody hn) hexec hok (fun _ => ⟨rfl, rfl⟩) hc
  have hread : appendBits body = switchUnless d .num .num ++ d.preset.v v := by
    rw [hbody, appendBits_append, appendBits_switchAppend, switchUnless, switchUnless, hd.preset, hd.curSet]
    simp [appendIn]
  rw [appendBits_append, hread] at hbits
  have hrun := (fetch_num hd.reading hne (State.holds_append.mp hbits).1).trans
    (doSymbol_term (s := { d.afterRead _ with curSet := .num }) (hd.preset ▸ hv))
  have hmodes : (e.emitted body).curSet = .num ∧ (e.emitted body).upper = e.upper :=
    hbody ▸ e.emitted_concat_modes _ _
  obtain ⟨hset, hupper, hwoff⟩ := emitted_padding (n := n) ((e.preset.v v).getLastD false) hmodes
  have hend : e'.woff = d.roff + (appendBits body).length + n := by
    rw [hc.1]
    exact (congrArg State.woff hstate).trans hwoff
  refine ⟨_, execDecStep_error hd.running hrun, rfl, ?_, ?_, ?_, ?_, ?_⟩
  · rw [hend, hread]
    exact Nat.le_add_right _ n
  · rw [hend, hread]
    exact Nat.add_lt_add_left (by omega) _
  · rw [hstate]
    exact hset.symm
  · rw [hstate]
    exact hd.upper.trans hupper.symm
  · rw [hstate]
    exact hd.prevCp

end

/-! ## The commands -/

/-- The commands that are one token in every mode (R150 to R160, R205 to R211, R235 to R259). -/
theorem sends_oneToken {i : Instr} {e : State} (hw : e.preset.wf = true) (hp : symbolsPlaced e.preset)
    (hi : i ∈ [Instr.pcSw, .pcCtrl, .udlEnc, .udlEsc, .tkBackref, .tkRepeat, .tkHex, .tkGuid, .tkTmpl, .tkFreq, .tkBin,
      .tkUni1]) : CommandSends (OneToken e) i e := by
  simp only [List.mem_cons, List.not_mem_nil, or_false] at hi
  obtain rfl | rfl | rfl | rfl | rfl | rfl | rfl | rfl | rfl | rfl | rfl | rfl := hi
  · exact sends_pcSw hw
  · exact sends_pcCtrl hw hp
  · exact sends_udlEnc
  · exact sends_udlEsc hw
  · exact sends_tkBackref
  · exact sends_tkRepeat hp
  · exact sends_tkHex
  · exact sends_tkGuid
  · exact sends_tkTmpl
  · exact sends_tkFreq hw hp
  · exact sends_tkBin
  · exact sends_tkUni1

/-- Settles O58: each command sends one token, up to three, or the terminator, and the automaton's turn on a token ends
behind its bits in the encoder's modes. -/
theorem tokensDecodeInLockStep : Obligations.TokensDecodeInLockStep := by
  intro i e e' d he hout hrange hw hplaced hexec hok hd hp hset hupper hcp hlhen hc
  have hpeer : Peer e d := ⟨hw, hrange.prevCp, hd, hp, hset, hupper, hcp, hlhen⟩
  refine ⟨fun hi d' hstep hok' => ?one, fun hi hroom d' hd' => ?several, ?term⟩
  case one =>
    suffices h : CaughtUp e' d' from ⟨h.roff, h.curSet, h.upper, h.prevCp⟩
    obtain hi | ⟨halpha, rfl | ⟨rfl, hoff⟩⟩ := hi
    · obtain ⟨fin, as, hone, hstate, hwoff, hbits⟩ := (sends_oneToken hw hplaced hi).sent he hout hexec hok hc
      exact hone.caughtUp hpeer hc hstate hwoff hbits hstep hok'
    · obtain ⟨as, hspelled, hstate, hbits⟩ := execPcUpper_sent he hout hw hexec hok hc
      exact (hspelled.oneToken halpha).caughtUp hpeer hc hstate (by rw [hstate]; rfl) hbits hstep hok'
    · obtain ⟨as, hspelled, hstate, hbits⟩ := execPcEnterd_sent he hout hw hexec hok hc
      exact (hspelled.oneToken ⟨halpha, hoff⟩).caughtUp hpeer hc hstate (by rw [hstate]; rfl) hbits hstep hok'
  case several =>
    subst hd'
    simp only [List.mem_cons, List.not_mem_nil, or_false] at hi
    obtain rfl | rfl | rfl := hi
    · obtain ⟨as, ⟨n, hn, -, hspelled⟩, rfl, hbits⟩ := execPcLit_sent he hout hw hexec hok hc
      obtain ⟨hrun, ⟨h1, h2, h3, h4⟩, hbytes, hopos⟩ := hspelled.decodeTo hn hpeer hbits (.inr (hroom rfl)) hc.1
      exact ⟨hrun, h1, h2, h3, h4, fun _ => ⟨hbytes, hopos⟩, fun h => absurd rfl h⟩
    · obtain ⟨as, ⟨-, n, hn, -, hspelled⟩, rfl, hbits⟩ := execPcUpper_sent he hout hw hexec hok hc
      obtain ⟨hrun, ⟨h1, h2, h3, h4⟩, hbytes, hopos⟩ := hspelled.decodeTo hn hpeer hbits (.inl rfl) hc.1
      exact ⟨hrun, h1, h2, h3, h4, nofun, fun _ => ⟨hbytes, hopos⟩⟩
    · obtain ⟨as, ⟨-, n, hn, -, hspelled⟩, rfl, hbits⟩ := execPcEnterd_sent he hout hw hexec hok hc
      obtain ⟨hrun, ⟨h1, h2, h3, h4⟩, hbytes, hopos⟩ := hspelled.decodeTo hn hpeer hbits (.inl rfl) hc.1
      exact ⟨hrun, h1, h2, h3, h4, nofun, fun _ => ⟨hbytes, hopos⟩⟩
  case term =>
    rintro rfl
    exact term_lockStep hpeer he hout hexec hok hc

end Sys2Proof.Machine
end

section
/-!
Step codes and counts: what STEP.ENC and CNT.ENC append, what stands at `ROFF` whatever the bits, and what STEP.DEC and
CNT.DEC answer for it, in the same block and in another (R181 to R188).
-/

namespace Sys2Proof.Machine

/-! ## The codes -/

/-- A step code below its cap ends with a zero, the step code of the cap has none (R182). -/
theorem stepBits_eq {i c : Nat} (h : i ≤ c) :
    stepBits i c = List.replicate i true ++ (if i = c then [] else [false]) := by
  rw [stepBits]
  by_cases heq : i = c
  · rw [if_neg (by omega), if_pos heq]
  · rw [if_pos (by omega), if_neg heq]

theorem stepBits_succ (i c : Nat) : stepBits (i + 1) (c + 1) = true :: stepBits i c := by
  simp [stepBits, List.replicate_succ]

/-- The tiers do not overlap (R181, R185). -/
theorem countTier_eq {i v : Nat} (hi : i ≤ 4) (hlo : countBase i ≤ v) (hhi : v < countBase i + 2 ^ countWidth i) :
    countTier v = i := by
  unfold countTier
  interval_cases i <;> simp only [countBase, countWidth] at * <;> split_ifs <;> omega

/-- The bits of a count are those of the tier that covers it (R185). -/
theorem cntBits_eq {i v : Nat} (hi : i ≤ 4) (hlo : countBase i ≤ v) (hhi : v < countBase i + 2 ^ countWidth i) :
    cntBits v = stepBits i 4 ++ field (countWidth i) (v - countBase i) := by
  rw [cntBits, countTier_eq hi hlo hhi, countCode]

/-- What a tier covers is a count (R181, R187). -/
theorem lt_countLimit_of_tier {i v : Nat} (hi : i ≤ 4) (hhi : v < countBase i + 2 ^ countWidth i) : v < 67732 := by
  interval_cases i <;> simp only [countBase, countWidth] at hhi <;> omega

/-- Every bit string is the field of some number (R7). -/
theorem exists_field_eq (bits : BitStr) : ∃ v, v < 2 ^ bits.length ∧ field bits.length v = bits := by
  refine ⟨(BitVec.ofBoolListBE bits).toNat, (BitVec.ofBoolListBE bits).isLt, ?_⟩
  refine List.ext_getElem (field_length _ _) fun k _ hk => ?_
  simp only [field_eq_map, List.getElem_map, List.getElem_range, BitVec.testBit_toNat]
  have hmsb := BitVec.getMsbD_ofBoolListBE (bs := bits) (i := k)
  rw [BitVec.getMsbD, decide_eq_true hk, Bool.true_and, List.getD_eq_getElem _ _ hk] at hmsb
  exact hmsb

/-! ## The commands of ENC mode -/

section
variable {s : State}

theorem execStepEnc_range (hs : s.canEncode) (h : ¬ (1 ≤ s.a1.toNat ∧ s.a1.toNat ≤ 8 ∧ s.a0.toNat ≤ s.a1.toNat)) :
    exec .stepEnc s = .next { s with status := .range } :=
  modeCommand_raises hs (by simp only [Cmd.bind_run, opA0_run, opA1_run, require_run, if_neg h])

theorem execStepEnc_emits (hs : s.canEncode) (h : 1 ≤ s.a1.toNat ∧ s.a1.toNat ≤ 8 ∧ s.a0.toNat ≤ s.a1.toNat) :
    exec .stepEnc s = .next (s.emits id [plainAppend s (stepBits s.a0.toNat s.a1.toNat)]) :=
  modeCommand_emits hs <| .look <| .look <| .require h <| emits_putBits _ ⟨rfl, rfl⟩

theorem execCntEnc_range (hs : s.canEncode) (h : 67732 ≤ s.a0.toNat) :
    exec .cntEnc s = .next { s with status := .range } := by
  have hbad : ¬ s.a0.toNat < Config.countLimit := Nat.not_lt.mpr h
  exact modeCommand_raises hs (by simp only [Cmd.bind_run, opA0_run, require_run, if_neg hbad])

theorem execCntEnc_emits (hs : s.canEncode) (h : s.a0.toNat < 67732) :
    exec .cntEnc s = .next (s.emits id [plainAppend s (cntBits s.a0.toNat)]) :=
  modeCommand_emits hs <| .look <| .require h <| emits_putBits _ ⟨rfl, rfl⟩

end

/-- Settles O35: each command is one append, of the step code or of the code of the tier that covers the count. -/
theorem stepAndCountCodesAppended : Obligations.StepAndCountCodesAppended := by
  refine fun s => ⟨fun hs => ⟨exec_refused rfl hs, exec_refused rfl hs⟩, fun hs =>
    ⟨execStepEnc_range hs, ?step, execCntEnc_range hs, ?count⟩⟩
  case step =>
    rintro bits hpos hcap hle hbits
    obtain rfl : bits = stepBits s.a0.toNat s.a1.toNat := by
      rw [hbits, stepBits_eq hle]
      simp only [BitVec.toNat_inj]
    exact emits_single (execStepEnc_emits hs ⟨hpos, hcap, hle⟩)
  case count =>
    rintro i bits hi hlo hhi rfl
    rw [← cntBits_eq hi hlo hhi]
    exact emits_single (execCntEnc_emits hs (lt_countLimit_of_tier hi hhi))

/-! ## What stands at ROFF -/

section
variable (s : State)

/-- Every bit string starts with a step code of any cap (R182, R188). -/
theorem State.exists_spells_stepBits (c : Nat) : ∃ i, i ≤ c ∧ s.spells (stepBits i c) := by
  induction c generalizing s with
  | zero => exact ⟨0, Nat.le_refl 0, s.spells_nil⟩
  | succ c ih =>
    cases hbit : paddedBit s s.roff with
    | false => exact ⟨0, Nat.zero_le _, State.spells_cons.mpr ⟨hbit, State.spells_nil _⟩⟩
    | true =>
      obtain ⟨i, hi, hrest⟩ := ih (s.afterRead 1)
      exact ⟨i + 1, Nat.succ_le_succ hi, stepBits_succ i c ▸ State.spells_cons.mpr ⟨hbit, hrest⟩⟩

/-- The next bits are the field of some number (R126). -/
theorem State.exists_spells_field (n : Nat) : ∃ f, f < 2 ^ n ∧ s.spells (field n f) := by
  obtain ⟨f, hf, hbits⟩ := exists_field_eq (s.nextBits n)
  rw [s.nextBits_length] at hf hbits
  exact ⟨f, hf, by rw [State.spells, field_length, hbits]⟩

/-- Every bit string starts with a count code: a step code and the field of its tier (R186, R188). -/
theorem State.exists_spells_cntBits : ∃ v, v < 67732 ∧ s.spells (cntBits v) := by
  obtain ⟨i, hi, hstep⟩ := s.exists_spells_stepBits 4
  obtain ⟨f, hf, hfield⟩ := (s.afterRead (stepBits i 4).length).exists_spells_field (countWidth i)
  have hhi : countBase i + f < countBase i + 2 ^ countWidth i := Nat.add_lt_add_left hf _
  refine ⟨countBase i + f, lt_countLimit_of_tier hi hhi, ?_⟩
  rw [cntBits_eq hi (Nat.le_add_right _ _) hhi, Nat.add_sub_cancel_left]
  exact State.spells_append.mpr ⟨hstep, hfield⟩

/-- Two count codes at `ROFF` are of the same count: the reader answers both (R186). -/
theorem State.spells_cntBits_unique {v w : Nat} (hv : v < 67732) (hw : w < 67732) (h : s.spells (cntBits v))
    (h' : s.spells (cntBits w)) : w = v := by
  have hread := (readCnt_run hw h').symm.trans (readCnt_run hv h)
  injection hread

end

/-! ## The commands of DEC mode -/

section
variable {s : State}

theorem execStepDec_range (hs : s.canDecode) (h : ¬ (1 ≤ s.a0.toNat ∧ s.a0.toNat ≤ 8)) :
    exec .stepDec s = .next { s with status := .range } :=
  decCommand_error hs (by simp only [Cmd.bind_run, opA0_run, require_run, if_neg h])

theorem execStepDec_spelled {i : Nat} (hs : s.canDecode) (hc : 1 ≤ s.a0.toNat ∧ s.a0.toNat ≤ 8)
    (hi : i ≤ s.a0.toNat) (h : s.spells (stepBits i s.a0.toNat)) :
    exec .stepDec s =
      .next { s.afterRead (stepBits i s.a0.toNat).length with r0 := BitVec.ofNat 32 i, status := .ok } :=
  decCommand_answers hs (by
    simp only [Cmd.bind_run, opA0_run, require_run, if_pos hc, readStep_run hi h, setR0_run])

theorem execCntDec_spelled {v : Nat} (hs : s.canDecode) (hv : v < 67732) (h : s.spells (cntBits v)) :
    exec .cntDec s =
      .next { s.afterRead (cntBits v).length with r0 := BitVec.ofNat 32 v, status := .ok } :=
  decCommand_answers hs (by simp only [Cmd.bind_run, readCnt_run hv h, setR0_run])

end

/-- Settles O36: the readers answer for the code at `ROFF`, of which there is one whatever the bits. -/
theorem stepAndCountCodesRead : Obligations.StepAndCountCodesRead := by
  refine fun s => ⟨fun hs => ⟨exec_refused rfl hs, exec_refused rfl hs⟩, fun hs =>
    ⟨execStepDec_range hs, ?step, fun _ _ => s.exists_spells_stepBits _, ?unique, fun v => execCntDec_spelled hs⟩⟩
  case step =>
    rintro i code hcap hpos hi rfl
    exact execStepDec_spelled hs ⟨hpos, hcap⟩ hi
  case unique =>
    obtain ⟨v, hv, hcode⟩ := s.exists_spells_cntBits
    exact ⟨v, ⟨hv, hcode⟩, fun w hw h => s.spells_cntBits_unique hv hw hcode h⟩

/-! ## From one block to another -/

/-- A count that ends OK was in range, and sent its code (R185). -/
theorem execCntEnc_sent {e e' d : State} (he : e.canEncode) (hout : e.out.wf = true) (hexec : exec .cntEnc e = .next e')
    (hok : e'.status = .ok) (hc : carries e e' d) :
    e.a0.toNat < 67732 ∧ e'.woff = e.woff + (cntBits e.a0.toNat).length ∧ d.holds (cntBits e.a0.toNat) := by
  by_cases hlimit : e.a0.toNat < 67732
  · obtain ⟨rfl, hbits⟩ := sent_of_emits hout (execCntEnc_emits he hlimit) hexec hok (fun _ => ⟨rfl, rfl⟩) hc
    have happended : appendBits [plainAppend e (cntBits e.a0.toNat)] = cntBits e.a0.toNat := List.append_nil _
    rw [happended] at hbits
    exact ⟨hlimit, (e.emitted_woff _).trans (by rw [happended]), hbits⟩
  · rw [execCntEnc_range he (Nat.not_lt.mp hlimit)] at hexec
    cases hexec
    cases hok

/-- Settles O57: the code one block sent stands at the `ROFF` of the other, none of it padding, and is read. -/
theorem countsRoundTripThroughTheStream : Obligations.CountsRoundTripThroughTheStream := by
  intro e e' d he hout hexec hok hd hc
  obtain ⟨hlimit, hwoff, hbits⟩ := execCntEnc_sent he hout hexec hok hc
  rw [execCntDec_spelled hd hlimit hbits.1, State.afterRead_of_holds hbits, hwoff, hc.1, BitVec.ofNat_toNat,
    BitVec.setWidth_eq]

end Sys2Proof.Machine
end

section
/-!
The Unicode delta codec: what UDL.ENC and UDL.ESC append, which head stands at `ROFF` whatever the bits, and what
UDL.DEC answers for it (R200 to R211).
-/

namespace Sys2Proof.Machine

/-! ## The codes -/

/-- A delta token is its step code, its sign and its magnitude field (R203). -/
theorem deltaCode_eq (i : Nat) (neg : Bool) (f : Nat) :
    deltaCode i neg f = stepBits i 5 ++ [neg] ++ field (deltaWidth i) f := by
  rw [deltaCode, List.append_assoc, List.singleton_append]

/-- The tiers do not overlap (R201, R203). -/
theorem deltaTier_eq {i m : Nat} (hi : i ≤ 4) (hlo : deltaBase i ≤ m) (hhi : m < deltaBase i + 2 ^ deltaWidth i) :
    deltaTier m = i := by
  unfold deltaTier
  interval_cases i <;> simp only [deltaBase, deltaWidth] at * <;> split_ifs <;> omega

/-- The bits of a difference are those of the tier that covers its magnitude (R203). -/
theorem deltaBits_eq {i : Nat} {d : Int} (hi : i ≤ 4) (hlo : deltaBase i ≤ d.natAbs)
    (hhi : d.natAbs < deltaBase i + 2 ^ deltaWidth i) :
    deltaBits d = stepBits i 5 ++ [decide (d < 0)] ++ field (deltaWidth i) (d.natAbs - deltaBase i) := by
  rw [deltaBits, deltaTier_eq hi hlo hhi, deltaCode_eq]

/-- A signed difference is its magnitude with its sign (R206). -/
theorem deltaValue_eq (i : Nat) (neg : Bool) (f : Nat) :
    deltaValue i neg f = (if neg then -1 else 1) * ((deltaBase i : Int) + f) := by
  cases neg <;> simp [deltaValue]

/-- The token of a tier has that tier's bits (R94, R203). -/
theorem deltaTokBits_tierTok {i f : Nat} (neg : Bool) (hi : i ≤ 4) (hf : f < 2 ^ deltaWidth i) :
    deltaTokBits (tierTok i neg f) = deltaCode i neg f := by
  have hfield : (BitVec.ofNat (deltaWidth i) f).toNat = f := toNat_field hf
  interval_cases i <;> exact congrArg (deltaCode _ neg) hfield

/-- A number is no codepoint of a delta below 0x80 and above `CP_MAX` (R205, R208). -/
theorem not_codepointOk_iff {cp : Int} : ¬ codepointOk cp ↔ cp < 0x80 ∨ 0x10FFFF < cp := by
  simp only [codepointOk, Config.cpMax]
  omega

/-! ## The commands of ENC mode -/

section
variable {s : State} {fin : State → State} {a : BitAppend}

/-- A command of one append and a write of its results: both made, or neither. -/
theorem emits_single_results {i : Instr} (h : exec i s = .next (s.emits fin [a])) :
    (s.fits a.bits.length →
      exec i s = .next { fin { s.appended a.bits with curSet := a.set, upper := a.upper } with status := .ok }) ∧
    (¬ s.fits a.bits.length → exec i s = .next (s.overflowed a.bits.length)) :=
  ⟨fun hf => by rw [h, State.emits_cons_fits [] hf]; rfl, fun hf => by rw [h, State.emits_cons_unfit [] hf]⟩

theorem execUdlEnc_refused (hs : s.canEncode) (hc : s.curSet ≠ .delta) :
    exec .udlEnc s = .next { s with status := .refused } :=
  modeCommand_raises hs (by simp only [Cmd.bind_run, opA0_run, look_run, require_run, if_neg hc])

theorem execUdlEnc_range (hs : s.canEncode) (hc : s.curSet = .delta) (h : s.a0.toNat < 0x80 ∨ 0x10FFFF < s.a0.toNat) :
    exec .udlEnc s = .next { s with status := .range } := by
  have hbad : ¬ codepointOk s.a0.toNat := not_codepointOk_iff.mpr (by omega)
  exact modeCommand_raises hs
    (by simp only [Cmd.bind_run, opA0_run, look_run, require_run, if_pos hc, if_neg hbad])

theorem execUdlEnc_emits (hs : s.canEncode) (hc : s.curSet = .delta) (hcp : codepointOk s.a0.toNat) :
    exec .udlEnc s = .next (s.emits (fun t => { t with prevCp := s.a0.toNat })
      [plainAppend s (deltaBits ((s.a0.toNat : Int) - s.prevCp))]) :=
  modeCommand_emits hs <| .look <| .look <| .require hc <| .require hcp <| emits_emitDelta _ ⟨rfl, rfl⟩ rfl

theorem execUdlEsc_refused (hs : s.canEncode) (hc : s.curSet ≠ .delta) :
    exec .udlEsc s = .next { s with status := .refused } :=
  modeCommand_raises hs (by simp only [Cmd.bind_run, opA0_run, opA1_run, look_run, require_run, if_neg hc])

theorem execUdlEsc_range (hs : s.canEncode) (hc : s.curSet = .delta) (h : 4 < s.a0.toNat) :
    exec .udlEsc s = .next { s with status := .range } :=
  modeCommand_raises hs (by
    simp only [Cmd.bind_run, opA0_run, opA1_run, look_run, require_run, if_pos hc, if_neg (Nat.not_le.mpr h)])

/-- Only the switch to ALPHA is an escape by itself (R210). -/
theorem execUdlEsc_switch_refused (hs : s.canEncode) (hc : s.curSet = .delta) (h0 : s.a0 = 1) (h1 : s.a1 ≠ 0) :
    exec .udlEsc s = .next { s with status := .refused } := by
  have he : s.a0.toNat = 1 := by rw [h0]; rfl
  have hset : ¬ setOfNumber s.a1.toNat = some .alpha := fun h =>
    h1 (BitVec.eq_of_toNat_eq (setOfNumber_alpha_iff.mp h))
  exact modeCommand_raises hs (by
    simp only [Cmd.bind_run, opA0_run, opA1_run, look_run, require_run, if_pos hc,
      if_pos (show s.a0.toNat ≤ 4 by omega), if_pos he, if_neg hset])

theorem execUdlEsc_switch_emits (hs : s.canEncode) (hc : s.curSet = .delta) (h0 : s.a0 = 1) (h1 : s.a1 = 0) :
    exec .udlEsc s = .next (s.emits id [appendIn s .alpha (switchBits s.preset s.curSet .alpha)]) :=
  modeCommand_emits hs <| .look <| .look <| .look <| .require hc <| .require (by rw [h0]; decide) <|
    .ite_pos (by rw [h0]; rfl) <| .require (by rw [h1]; rfl) <| emits_emitSW s .alpha

theorem execUdlEsc_literal_emits (hs : s.canEncode) (hc : s.curSet = .delta) (hne : s.a0 ≠ 1) (hle : s.a0.toNat ≤ 4) :
    exec .udlEsc s = .next (s.emits id [plainAppend s (escapeBits s.a0.toNat)]) :=
  modeCommand_emits hs <| .look <| .look <| .look <| .require hc <| .require hle <|
    .ite_neg (fun he => hne (BitVec.eq_of_toNat_eq he)) <| emits_putBits _ ⟨rfl, rfl⟩

end

/-- Settles O37: the command is one append, of the tier that covers the difference, and `PREV_CP` goes with it. -/
theorem udlEncAppendsTheDelta : Obligations.UdlEncAppendsTheDelta := by
  refine fun s => ⟨exec_refused rfl, fun hs => ⟨execUdlEnc_refused hs, fun hc => ⟨execUdlEnc_range hs hc, ?_⟩⟩⟩
  rintro _ i bits hlo hhi rfl hi hbase htier rfl
  rw [← deltaBits_eq hi hbase htier]
  have hcp : codepointOk s.a0.toNat := ⟨by omega, by simp only [Config.cpMax]; omega⟩
  exact emits_single_results (execUdlEnc_emits hs hc hcp)

/-- Settles O39: the escape SWITCH is the switch of DELTA to ALPHA, every other escape one append. -/
theorem udlEscAppendsTheEscape : Obligations.UdlEscAppendsTheEscape := by
  rintro s _ _ rfl rfl
  refine ⟨exec_refused rfl, fun hs => ⟨execUdlEsc_refused hs, fun hc =>
    ⟨execUdlEsc_range hs hc, execUdlEsc_switch_refused hs hc, fun h0 h1 => ?switch,
      fun hne hle => emits_single (execUdlEsc_literal_emits hs hc hne hle)⟩⟩⟩
  have hbits : stepBits 5 5 ++ stepBits s.a0.toNat 4 ++ s.preset.h .alpha = switchBits s.preset s.curSet .alpha := by
    rw [h0, hc]; rfl
  rw [hbits]
  exact emits_single (execUdlEsc_switch_emits hs hc h0 h1)

/-! ## What stands at ROFF -/

section
variable (s : State)

/-- The next bits are a sign and the field of some number (R206). -/
theorem State.exists_spells_signed (n : Nat) : ∃ neg f, f < 2 ^ n ∧ s.spells (neg :: field n f) := by
  obtain ⟨f, hf, hfield⟩ := (s.afterRead 1).exists_spells_field n
  exact ⟨paddedBit s s.roff, f, hf, State.spells_cons.mpr ⟨rfl, hfield⟩⟩

/-- Every bit string starts with a delta token: an escape, or a step code, a sign and the field of its tier (R206). -/
theorem State.exists_spells_deltaTokBits : ∃ d, s.spells (deltaTokBits d) := by
  obtain ⟨i, hi, hstep⟩ := s.exists_spells_stepBits 5
  obtain rfl | hlt := hi.eq_or_lt
  · obtain ⟨e, he, hescape⟩ := (s.afterRead (stepBits 5 5).length).exists_spells_stepBits 4
    exact ⟨.escape ⟨e, Nat.lt_succ_of_le he⟩, State.spells_append.mpr ⟨hstep, hescape⟩⟩
  · obtain ⟨neg, f, hf, hsigned⟩ := (s.afterRead (stepBits i 5).length).exists_spells_signed (deltaWidth i)
    refine ⟨tierTok i neg f, ?_⟩
    rw [deltaTokBits_tierTok neg (Nat.le_of_lt_succ hlt) hf]
    exact State.spells_append.mpr ⟨hstep, hsigned⟩

end

/-! ## The command of DEC mode -/

section
variable {s t : State}

/-- The token of a tier at `ROFF` is read as its signed difference, a negative zero too (R206, R207). -/
theorem readDeltaHead_deltaCode {i f : Nat} {neg : Bool} (hi : i ≤ 4) (hf : f < 2 ^ deltaWidth i)
    (h : s.spells (deltaCode i neg f)) :
    readDeltaHead s = .ok (.delta (deltaValue i neg f)) (s.afterRead (deltaCode i neg f).length) := by
  rw [deltaCode] at h ⊢
  obtain ⟨hstep, hrest⟩ := State.spells_append.mp h
  obtain ⟨hsign, hmag⟩ := State.spells_cons.mp hrest
  rw [readDeltaHead, Cmd.bind_run, readStep_run (by omega) hstep]
  dsimp only
  rw [if_neg (by omega), Cmd.bind_run, getBit_run, hsign]
  dsimp only
  rw [Cmd.bind_run, getBits_field hf hmag, State.afterRead_afterRead, State.afterRead_afterRead, List.length_append,
    List.length_cons, field_length, Nat.add_comm 1]
  rfl

theorem applyUnitDelta_run {d : Int} (h : codepointOk (s.prevCp + d)) :
    applyUnitDelta d s = .ok () { s with
      prevCp := (s.prevCp + d).toNat, r0 := 0, r1 := BitVec.ofInt 32 d,
      r2 := BitVec.ofNat 32 (s.prevCp + d).toNat } := by
  rw [applyUnitDelta, Cmd.bind_run, look_run]
  dsimp only
  rw [Cmd.bind_run, require_run, if_pos h]
  rfl

theorem applyUnitDelta_malformed {d : Int} (h : ¬ codepointOk (s.prevCp + d)) :
    applyUnitDelta d s = .error .malformed s := by
  rw [applyUnitDelta, Cmd.bind_run, look_run]
  dsimp only
  rw [Cmd.bind_run, require_run, if_neg h]

/-- What UDL.DEC does with the head it has read (R208). -/
def applyUnitHead : DeltaHead → Cmd Unit
  | .escape e => do
    setR0 1
    setR1 e
    setR2 (escapeByte e).toNat
  | .delta d => applyUnitDelta d

theorem execUdlDec_eq (s : State) :
    exec .udlDec s = modeCommand .dec (readDeltaHead >>= applyUnitHead) s := rfl

/-- UDL.DEC whose head is read and applied (R208). -/
theorem execUdlDec_ok {x : DeltaHead} {n : Nat} (hs : s.canDecode) (hread : readDeltaHead s = .ok x (s.afterRead n))
    (h : applyUnitHead x (s.afterRead n) = .ok () t) : exec .udlDec s = .next { t with status := .ok } := by
  rw [execUdlDec_eq, modeCommand_run hs.1 hs.2, endCommand_ok (t := t)]
  rw [Cmd.bind_run, hread]
  exact h

theorem execUdlDec_error {x : DeltaHead} {n : Nat} {e : Status} (hs : s.canDecode)
    (hread : readDeltaHead s = .ok x (s.afterRead n)) (h : applyUnitHead x (s.afterRead n) = .error e t) :
    exec .udlDec s = .next { t with status := e } := by
  rw [execUdlDec_eq]
  exact decCommand_error hs (by rw [Cmd.bind_run, hread]; exact h)

/-- The byte of an escape as a word (R208). -/
theorem escapeByte_word {e : Nat} (he : e ≤ 4) :
    BitVec.ofNat 32 (escapeByte e).toNat = ([0x20, 0, 0x2C, 0x2E, 0x0A] : List Word).getD e 0 := by
  interval_cases e <;> rfl

theorem execUdlDec_escape {e : Nat} (hs : s.canDecode) (he : e ≤ 4) (h : s.spells (escapeBits e)) :
    exec .udlDec s = .next { s.afterRead (escapeBits e).length with
      r0 := 1, r1 := BitVec.ofNat 32 e, r2 := ([0x20, 0, 0x2C, 0x2E, 0x0A] : List Word).getD e 0, status := .ok } := by
  rw [← escapeByte_word he]
  exact execUdlDec_ok hs (readDeltaHead_escape he h) rfl

end

/-- Settles O38: the head at `ROFF`, of which there is one whatever the bits, is read, and then applied. -/
theorem udlDecReadsOneHead : Obligations.UdlDecReadsOneHead := by
  refine fun s => ⟨exec_refused rfl, fun hs => ⟨s.exists_spells_deltaTokBits, ?escape, ?magnitude⟩⟩
  case escape =>
    rintro e code he rfl hbits
    exact execUdlDec_escape hs he hbits
  case magnitude =>
    rintro i neg f code d hi hf hcode hbits hd
    obtain rfl : code = deltaCode i neg f := by rw [hcode, deltaCode_eq]
    obtain rfl : d = deltaValue i neg f := by rw [hd, deltaValue_eq]
    have hread := readDeltaHead_deltaCode hi hf hbits
    exact ⟨fun hlo hhi => execUdlDec_ok hs hread (applyUnitDelta_run (s := s.afterRead _) ⟨hlo, hhi⟩),
      fun hbad =>
        execUdlDec_error hs hread (applyUnitDelta_malformed (s := s.afterRead _) (not_codepointOk_iff.mpr hbad))⟩

end Sys2Proof.Machine
end

section
/-!
The delta tokens of the automaton: a magnitude moves `PREV_CP` and outputs the bytes of the codepoint, a literal escape
outputs its byte, in the resting set DELTA and after a transient switch to it (R294, R303 to R306).
-/

namespace Sys2Proof.Machine

/-! ## The magnitude -/

theorem deltaMagnitude_run {d : Int} {s : State} (h : codepointOk (s.prevCp + d)) :
    deltaMagnitude d s = putBytes (utf8 (s.prevCp + d).toNat) { s with prevCp := (s.prevCp + d).toNat } := by
  rw [deltaMagnitude, Cmd.bind_run, look_run]
  dsimp only
  rw [Cmd.bind_run, require_run, if_pos h]
  rfl

theorem deltaMagnitude_malformed {d : Int} {s : State} (h : ¬ codepointOk (s.prevCp + d)) :
    deltaMagnitude d s = .error .malformed s := by
  rw [deltaMagnitude, Cmd.bind_run, look_run]
  dsimp only
  rw [Cmd.bind_run, require_run, if_neg h]

/-! ## The forms -/

section
variable {i : Instr} {body body' : Cmd Unit} {s t : State}

/-- What a form does is what its body does once its bits are consumed: two running states from which the bodies do the
same and the output starts at the same byte end alike (log entry 10). -/
theorem tokenForm_congr (hs : s.running) (ht : t.running) (hc : inContext (wireCtx s) i = true)
    (hctx : wireCtx t = wireCtx s) (hopos : t.opos = s.opos) (hb : body (s.consumed i) = body' (t.consumed i)) :
    tokenForm i body s = tokenForm i body' t := by
  cases hr : body' (t.consumed i) with
  | ok _ u => rw [tokenForm_ok hs hc (hb.trans hr), tokenForm_ok ht (hctx ▸ hc) hr, hopos]
  | error e u => rw [tokenForm_error hs hc (hb.trans hr), tokenForm_error ht (hctx ▸ hc) hr, hopos]

/-- From a state, a form of `n` bits does what the head of a delta token does, the escape SWITCH apart (R303, R304). -/
structure DeltaForm (s : State) (i : Instr) (d : DeltaTok) (n : Nat) (onSwitch : Cmd Unit) : Prop where
  inContext : inContext (wireCtx s) i = true
  headLength : s.headLength i = n
  exec_eq : exec i s = tokenForm i (deltaEffect onSwitch (deltaTokHead d)) s

variable {d : DeltaTok} {n : Nat} {k : Cmd Unit}

theorem inContext_deltaRow (d : DeltaTok) (c : WireCtx) : inContext c (deltaRow d) = true := by
  cases d with
  | escape e => fin_cases e <;> rfl
  | _ => rfl

theorem encodeHead_deltaRow (d : DeltaTok) (c : WireCtx) : encodeHead c (deltaRow d) = deltaTokBits d := by
  cases d with
  | escape e => fin_cases e <;> rfl
  | _ => rfl

theorem exec_deltaRow (d : DeltaTok) (s : State) : exec (deltaRow d) s = tokenForm (deltaRow d) (deltaForm d) s := by
  cases d with
  | escape e => fin_cases e <;> rfl
  | _ => rfl

theorem deltaRow_deltaForm (hs : s.running) (d : DeltaTok) :
    DeltaForm s (deltaRow d) d (deltaTokBits d).length
      (if s.curSet = .delta then switchInDelta else raise .malformed) where
  inContext := inContext_deltaRow d _
  headLength := congrArg List.length (encodeHead_deltaRow d _)
  exec_eq := (exec_deltaRow d s).trans (tokenForm_congr hs hs (inContext_deltaRow d _) rfl rfl rfl)

theorem uni1_deltaForm (hset : s.curSet ≠ .delta) (d : DeltaTok) :
    DeltaForm s (.uni1 d) d (s.formLength (.uni1 d)) (raise .malformed) where
  inContext := by simp [Machine.inContext, hset]
  headLength := (State.formLength_eq_headLength rfl).symm
  exec_eq := rfl

/-- A magnitude in range moves `PREV_CP` and outputs bytes: all of them, or those that fit (R294, R305). -/
theorem DeltaForm.outputs {x : Int} {bs : ByteStr} (h : DeltaForm s i d n k) (hs : s.running)
    (hx : deltaTokHead d = .delta x) (hbs : bs = utf8 (s.prevCp + x).toNat) (hcp : codepointOk (s.prevCp + x)) :
    (s.room bs.length → exec i s = .next { s.tokenDone n bs with prevCp := (s.prevCp + x).toNat }) ∧
      (s.overrun bs.length → exec i s = .next { s.cutShort n bs with prevCp := (s.prevCp + x).toNat }) := by
  have hmoved : exec i s = tokenForm i (putBytes bs) { s with prevCp := (s.prevCp + x).toNat } := by
    rw [h.exec_eq, hx, hbs]
    exact tokenForm_congr (t := { s with prevCp := (s.prevCp + x).toNat }) hs hs h.inContext rfl rfl
      (deltaMagnitude_run (s := s.consumed i) hcp)
  rw [hmoved, ← h.headLength]
  exact tokenForm_outputs (s := { s with prevCp := (s.prevCp + x).toNat }) (c := s.curSet) hs h.inContext rfl

/-- A magnitude out of range halts MALFORMED and moves nothing (R305, R345). -/
theorem DeltaForm.malformed {x : Int} (h : DeltaForm s i d n k) (hs : s.running) (hx : deltaTokHead d = .delta x)
    (hcp : ¬ codepointOk (s.prevCp + x)) : exec i s = .next (s.malformedAt n) := by
  rw [h.exec_eq, hx, ← h.headLength]
  exact tokenForm_malformed (c := s.curSet) hs h.inContext (deltaMagnitude_malformed (s := s.consumed i) hcp)

/-- A literal escape outputs its byte, if it fits (R294, R306). -/
theorem DeltaForm.literal {e : Fin 5} {b : Byte} (h : DeltaForm s i (.escape e) n k) (hs : s.running) (hne : e ≠ 1)
    (hb : b = escapeByte e.val) :
    (s.room 1 → exec i s = .next (s.tokenDone n [b])) ∧ (s.overrun 1 → exec i s = .next (s.cutShort n [b])) := by
  have hlit : e.val ≠ 1 := fun he => hne (Fin.ext he)
  rw [h.exec_eq, ← h.headLength, hb]
  refine tokenForm_outputs (bs := [escapeByte e.val]) (c := s.curSet) hs h.inContext ?_
  rw [putBytes_singleton]
  exact congrFun (if_neg hlit) _

/-- The escape SWITCH has no meaning after a transient switch to DELTA (R304, R345). -/
theorem execUni1_switch (hs : s.running) (hset : s.curSet ≠ .delta) :
    exec (.uni1 (.escape 1)) s = .next (s.malformedAt (s.formLength (.uni1 (.escape 1)))) := by
  rw [State.formLength_eq_headLength rfl]
  exact tokenForm_malformed (c := s.curSet) hs (uni1_deltaForm hset _).inContext rfl

end

/-- The byte of an escape (R209). -/
theorem escapeByte_eq (e : Fin 5) : escapeByte e.val = ([0x20, 0, 0x2C, 0x2E, 0x0A] : ByteStr).getD e.val 0 := by
  fin_cases e <;> rfl

/-- Settles O52: the bare row and the transient token of a delta are two forms of its head, settled case by case. -/
theorem deltaFormsOutputTheCodepoint : Obligations.DeltaFormsOutputTheCodepoint := by
  refine fun s hs => ⟨?magnitude, ?escape, execUni1_switch hs⟩
  case magnitude =>
    intro d x bs hx hbs
    have hrow := deltaRow_deltaForm hs d
    refine ⟨fun hlo hhi => ?_, fun hbad => ?_⟩
    · have hcp : codepointOk (s.prevCp + x) := ⟨hlo, hhi⟩
      obtain ⟨hdone, hcut⟩ := hrow.outputs hs hx hbs hcp
      exact ⟨fun hroom => ⟨hdone hroom, fun hset => ((uni1_deltaForm hset d).outputs hs hx hbs hcp).1 hroom⟩,
        fun hover => ⟨hcut hover, fun hset => ((uni1_deltaForm hset d).outputs hs hx hbs hcp).2 hover⟩⟩
    · have hcp := not_codepointOk_iff.mpr hbad
      exact ⟨hrow.malformed hs hx hcp, fun hset => (uni1_deltaForm hset d).malformed hs hx hcp⟩
  case escape =>
    intro e b hne hb
    rw [← escapeByte_eq] at hb
    obtain ⟨hdone, hcut⟩ := (deltaRow_deltaForm hs (.escape e)).literal hs hne hb
    exact ⟨fun hroom => ⟨hdone hroom, fun hset => ((uni1_deltaForm hset (.escape e)).literal hs hne hb).1 hroom⟩,
      fun hover => ⟨hcut hover, fun hset => ((uni1_deltaForm hset (.escape e)).literal hs hne hb).2 hover⟩⟩

end Sys2Proof.Machine
end

section
/-!
The ESC forms of the automaton: a payload as the fields that it consumes and the bytes that they become, and what is
consumed and written of it where OUT ends (R244, R247, R250, R257, R294).
-/

namespace Sys2Proof.Machine

/-! ## Payloads -/

/-- A payload piece by piece: the field read, empty for a byte that has none, and the byte written for it. -/
abbrev Payload := List (BitStr × Byte)

def Payload.bits (ps : Payload) : BitStr := ps.flatMap Prod.fst

def Payload.bytes (ps : Payload) : ByteStr := ps.map Prod.snd

@[simp] theorem Payload.bits_cons (p : BitStr × Byte) (ps : Payload) :
    Payload.bits (p :: ps) = p.1 ++ Payload.bits ps := rfl

@[simp] theorem Payload.bytes_cons (p : BitStr × Byte) (ps : Payload) :
    Payload.bytes (p :: ps) = p.2 :: Payload.bytes ps := rfl

@[simp] theorem Payload.length_bytes (ps : Payload) : ps.bytes.length = ps.length := List.length_map _

/-- The first pieces of a payload whose fields are all as wide. -/
theorem Payload.length_bits_take {ps : Payload} {w n : Nat} (hw : ∀ p ∈ ps, p.1.length = w) (hn : n ≤ ps.length) :
    (Payload.bits (ps.take n)).length = w * n := by
  induction ps generalizing n with
  | nil => obtain rfl : n = 0 := by simpa using hn
           rfl
  | cons p ps ih =>
    cases n with
    | zero => rfl
    | succ n =>
      have hrest := ih (fun q hq => hw q (.tail p hq)) (Nat.le_of_succ_le_succ hn)
      rw [List.take_succ_cons, Payload.bits_cons, List.length_append, hw p (.head ps), hrest, Nat.mul_succ,
        Nat.add_comm]

/-- The state after some bits of a payload are consumed. -/
def State.skipped (s : State) (n : Nat) : State := { s with roff := s.roff + n }

/-- Each piece is consumed and its byte written, in order. -/
def putPayload : Payload → Cmd Unit
  | [] => pure ()
  | p :: ps => do
    consume p.1
    putByte p.2
    putPayload ps

theorem consume_skips (f : BitStr) (s : State) : consume f s = .ok () (s.skipped f.length) := rfl

theorem State.skipped_skipped (s : State) (m n : Nat) : (s.skipped m).skipped n = s.skipped (m + n) := by
  rw [State.skipped, State.skipped, State.skipped, Nat.add_assoc]

/-- A byte written at the capacity overflows (R128). -/
theorem putByte_atCapacity {b : Byte} {s : State} (ho : s.ovf = false) (hfull : s.opos = s.ocap) :
    putByte b s = .error .overflow { s with ovf := true, need := s.ocap + 1 } := by
  rw [putByte_run, if_neg (by simp [ho]), if_pos hfull.ge]

/-- A payload is its bytes written, after the fields of those that fit and of the first that does not (R294). -/
theorem putPayload_eq_putBytes (ps : Payload) {s : State} (ho : s.ovf = false) (hle : s.opos ≤ s.ocap) :
    putPayload ps s = putBytes ps.bytes (s.skipped (Payload.bits (ps.take (s.ocap - s.opos + 1))).length) := by
  induction ps generalizing s with
  | nil => rfl
  | cons p ps ih =>
    rw [putPayload, Cmd.bind_run, consume_skips, List.take_succ_cons, Payload.bits_cons, List.length_append,
      Payload.bytes_cons, putBytes, ← State.skipped_skipped]
    simp only [Cmd.bind_run]
    obtain hfull | hroom := hle.eq_or_lt
    · rw [putByte_atCapacity (s := s.skipped _) ho hfull, putByte_atCapacity (s := (s.skipped _).skipped _) ho hfull,
        Nat.sub_eq_zero_of_le hfull.ge]
      rfl
    · have hk : s.ocap - s.opos = s.ocap - (s.opos + 1) + 1 := by omega
      rw [putByte_room (s := s.skipped _) ⟨ho, hroom⟩, putByte_room (s := (s.skipped _).skipped _) ⟨ho, hroom⟩, hk]
      exact ih (s := (s.skipped p.1.length).written [p.2]) ho hroom

theorem inNum_run (body : Cmd Unit) (s : State) : inNum body s = body { s with curSet := .num } := rfl

section
variable {i : Instr} {body : Cmd Unit} {s : State} {ps : Payload}

/-- An ESC form with a payload: all of it, or its head and what fits (R292, R294). -/
theorem tokenForm_payload (hs : s.running) (hc : inContext (wireCtx s) i = true)
    (hb : body (s.consumed i) = putPayload ps { s.consumed i with curSet := .num })
    (hbits : encodePayload (wireCtx s) i = ps.bits) :
    (s.room ps.length → tokenForm i body s = .next (s.numDone i ps.bytes)) ∧
      (s.overrun ps.length → tokenForm i body s =
        .next { s.cutShort (s.headLength i + (Payload.bits (ps.take (s.ocap - s.opos + 1))).length) ps.bytes with
          curSet := .num }) := by
  set n := (Payload.bits (ps.take (s.ocap - s.opos + 1))).length with hn
  set t := s.skipped n with ht
  have hcongr (ho : s.ovf = false) (hle : s.opos ≤ s.ocap) :
      tokenForm i body s = tokenForm i (inNum (putBytes ps.bytes)) t := by
    refine tokenForm_congr hs (t := t) hs hc rfl rfl (hb.trans ?_)
    refine (putPayload_eq_putBytes ps (s := { s.consumed i with curSet := .num }) ho hle).trans ?_
    rw [inNum_run]
    simp only [State.consumed, ht, State.skipped, Nat.add_right_comm]
    rfl
  obtain ⟨hdone, hcut⟩ := tokenForm_outputs (s := t) (c := .num) (body := inNum (putBytes ps.bytes)) hs hc rfl
  rw [Payload.length_bytes] at hdone hcut
  constructor
  · intro hroom
    have hall : s.headLength i + n = s.formLength i := by
      rw [hn, List.take_of_length_le (by have := hroom.2; omega), State.formLength, encode, hbits, List.length_append]
      rfl
    rw [hcongr hroom.1 (by have := hroom.2; omega), hdone hroom, State.numDone, ← hall]
    simp only [ht, State.skipped, State.tokenDone, Nat.add_assoc, Nat.add_comm n]
    rfl
  · intro hover
    rw [hcongr hover.1 hover.2.1, hcut hover]
    simp only [ht, State.skipped, State.cutShort, Nat.add_assoc, Nat.add_comm n]
    rfl

end

/-! ## Hex runs and binary runs -/

section
variable {i : Instr} {body : Cmd Unit} {s : State}

/-- A run of values that each make a field of `w` bits and a byte; a run of none is MALFORMED (R244, R257, R345). -/
theorem tokenForm_run {α : Type} {xs : List α} {f : α → BitStr × Byte} {w : Nat} (hs : s.running)
    (hc : inContext (wireCtx s) i = true)
    (hb : xs ≠ [] → body (s.consumed i) = putPayload (xs.map f) { s.consumed i with curSet := .num })
    (hnil : xs = [] → body (s.consumed i) = .error .malformed { s.consumed i with curSet := .num })
    (hbits : encodePayload (wireCtx s) i = Payload.bits (xs.map f)) (hw : ∀ x, (f x).1.length = w) :
    (xs ≠ [] →
        (s.room xs.length → tokenForm i body s = .next (s.numDone i (Payload.bytes (xs.map f)))) ∧
        (s.overrun xs.length → tokenForm i body s =
          .next { s.cutShort (s.headLength i + w * (s.ocap - s.opos + 1)) (Payload.bytes (xs.map f)) with
            curSet := .num })) ∧
      (xs = [] → tokenForm i body s = .next { s.malformedAt (s.headLength i) with curSet := .num }) := by
  refine ⟨fun hne => ?_, fun h => tokenForm_malformed hs hc (hnil h)⟩
  obtain ⟨hdone, hcut⟩ := tokenForm_payload hs hc (hb hne) hbits
  rw [List.length_map] at hdone hcut
  refine ⟨hdone, fun hover => ?_⟩
  have htaken : (Payload.bits ((xs.map f).take (s.ocap - s.opos + 1))).length = w * (s.ocap - s.opos + 1) :=
    Payload.length_bits_take (by simpa using fun x _ => hw x)
      (by rw [List.length_map]; have := hover.2.2; omega)
  rw [hcut hover, htaken]

end

theorem require_bind_run (c : Prop) [Decidable c] (e : Status) (body : Cmd Unit) (s : State) :
    (do require c e; body) s = if c then body s else .error e s := by
  rw [Cmd.bind_run, require_run]
  by_cases hc : c
  · rw [if_pos hc, if_pos hc]
  · rw [if_neg hc, if_neg hc]

theorem putNibbles_eq_putPayload (up : HexCase) (ns : List (BitVec 4)) :
    putNibbles up ns = putPayload (ns.map fun x => (field 4 x.toNat, hexChar x.toNat up)) := by
  induction ns with
  | nil => rfl
  | cons x ns ih => rw [putNibbles, ih, List.map_cons, putPayload]

theorem putRaw_eq_putPayload (bs : ByteStr) : putRaw bs = putPayload (bs.map fun b => (field 8 b.toNat, b)) := by
  induction bs with
  | nil => rfl
  | cons b bs ih => rw [putRaw, ih, List.map_cons, putPayload]

section
variable {i : Instr} {s : State}

theorem execHexRow {ns : List (BitVec 4)} {up : HexCase} (hs : s.running)
    (hi : i = match up with | .lower => .esc1HexLower ns | .upper => .esc3HexUpper ns) :
    (ns ≠ [] →
        (s.room ns.length → exec i s = .next (s.numDone i (ns.map fun x => hexChar x.toNat up))) ∧
        (s.overrun ns.length → exec i s =
          .next { s.cutShort (s.headLength i + 4 * (s.ocap - s.opos + 1)) (ns.map fun x => hexChar x.toNat up) with
            curSet := .num })) ∧
      (ns = [] → exec i s = .next { s.malformedAt (s.headLength i) with curSet := .num }) := by
  have hc : inContext (wireCtx s) i = true := by subst hi; cases up <;> rfl
  have hexec : exec i s = tokenForm i (hexForm up ns) s := by subst hi; cases up <;> rfl
  have hpayload : encodePayload (wireCtx s) i = nibbleBits ns := by subst hi; cases up <;> rfl
  have hbytes : (ns.map fun x => hexChar x.toNat up) =
      Payload.bytes (ns.map fun x => (field 4 x.toNat, hexChar x.toNat up)) := by
    rw [Payload.bytes, List.map_map]; rfl
  rw [hexec, hbytes]
  refine tokenForm_run hs hc (fun hne => ?_) (fun hnil => ?_) ?_ (fun x => field_length 4 _)
  · rw [hexForm, inNum_run, require_bind_run, if_pos hne, putNibbles_eq_putPayload]
  · rw [hexForm, inNum_run, require_bind_run, if_neg (not_not.mpr hnil)]
  · rw [hpayload, Payload.bits, List.flatMap_map, nibbleBits]

theorem execBinaryRow {bs : ByteStr} (hs : s.running) (hi : i = .esc5Binary bs) :
    (bs ≠ [] →
        (s.room bs.length → exec i s = .next (s.numDone i bs)) ∧
        (s.overrun bs.length → exec i s =
          .next { s.cutShort (s.headLength i + 8 * (s.ocap - s.opos + 1)) bs with curSet := .num })) ∧
      (bs = [] → exec i s = .next { s.malformedAt (s.headLength i) with curSet := .num }) := by
  subst hi
  have hbytes : Payload.bytes (bs.map fun b => (field 8 b.toNat, b)) = bs := by
    rw [Payload.bytes, List.map_map]
    exact List.map_id bs
  have h := tokenForm_run (body := binForm bs) (xs := bs) (i := .esc5Binary bs) (f := fun b => (field 8 b.toNat, b))
    hs rfl (fun hne => ?_) (fun hnil => ?_) ?_ (fun b => field_length 8 _)
  · rwa [hbytes] at h
  · rw [binForm, inNum_run, require_bind_run, if_pos hne, putRaw_eq_putPayload]
  · rw [binForm, inNum_run, require_bind_run, if_neg (not_not.mpr hnil)]
  · rw [Payload.bits, List.flatMap_map]
    rfl

end

/-! ## GUIDs -/

/-- The payload of a GUID from nibble number `q` on: a hyphen has no field (R247). -/
def guidPayload (up : HexCase) : Nat → List (BitVec 4) → Payload
  | _, [] => []
  | q, x :: xs =>
    (field 4 x.toNat, hexChar x.toNat up) ::
      ((if hyphenAfter q then [([], 0x2D)] else []) ++ guidPayload up (q + 1) xs)

theorem putGuid_eq_putPayload (up : HexCase) (q : Nat) (ns : List (BitVec 4)) :
    putGuid up q ns = putPayload (guidPayload up q ns) := by
  induction ns generalizing q with
  | nil => rfl
  | cons x ns ih =>
    have hnone : consume [] = pure () := rfl
    rw [putGuid, putGuidNibble, guidPayload, putPayload, ih]
    cases hyphenAfter q with
    | false => simp
    | true => simp [putPayload, hnone]

theorem bits_guidPayload (up : HexCase) (q : Nat) (ns : List (BitVec 4)) :
    (guidPayload up q ns).bits = nibbleBits ns := by
  induction ns generalizing q with
  | nil => rfl
  | cons x ns ih =>
    have hrest : nibbleBits (x :: ns) = field 4 x.toNat ++ nibbleBits ns := rfl
    rw [guidPayload, Payload.bits_cons, hrest, ← ih (q + 1)]
    cases hyphenAfter q <;> rfl

/-- A run of digits by their places. -/
theorem digits_by_place {ns : List (BitVec 4)} {n : Nat} (h : ns.length = n) :
    ∃ f : Nat → BitVec 4, ns = (List.range n).map f :=
  ⟨fun j => ns.getD j 0, List.ext_getElem (by simp [h]) fun j hj _ => by simp [hj]⟩

theorem bytes_guidPayload (up : HexCase) {ns : List (BitVec 4)} (h : ns.length = 32) :
    (guidPayload up 0 ns).bytes = guidText up ns := by
  obtain ⟨f, rfl⟩ := digits_by_place h
  rfl

/-- The width of the field of a byte of a GUID, by its offset (R245, R247). -/
def guidWidth (j : Nat) : Nat := if j ∈ [8, 13, 18, 23] then 0 else 4

theorem widths_guidPayload (up : HexCase) {ns : List (BitVec 4)} (h : ns.length = 32) :
    (guidPayload up 0 ns).map (fun p => p.1.length) = (List.range 36).map guidWidth := by
  obtain ⟨f, rfl⟩ := digits_by_place h
  rfl

theorem sum_guidWidth (n : Nat) :
    ((List.range n).map guidWidth).sum = 4 * ((List.range n).filter (fun j => j ∉ [8, 13, 18, 23])).length := by
  induction n with
  | zero => rfl
  | succ n ih =>
    rw [List.range_succ, List.map_append, List.sum_append, ih, List.filter_append, List.length_append, Nat.mul_add]
    by_cases hn : n ∈ [8, 13, 18, 23]
    · simp only [guidWidth, List.map_singleton, List.filter_cons, hn, not_true_eq_false, if_true, decide_false]
      rfl
    · simp only [guidWidth, List.map_singleton, List.filter_cons, hn, not_false_eq_true, if_false, decide_true]
      rfl

/-- The fields of the first bytes of a GUID. -/
theorem length_bits_guidPayload_take (up : HexCase) {ns : List (BitVec 4)} (h : ns.length = 32) {n : Nat}
    (hn : n ≤ 36) :
    (Payload.bits ((guidPayload up 0 ns).take n)).length =
      4 * ((List.range n).filter (fun j => j ∉ [8, 13, 18, 23])).length := by
  rw [Payload.bits, List.length_flatMap, List.map_take, widths_guidPayload up h, ← List.map_take, List.take_range,
    Nat.min_eq_left hn, sum_guidWidth]

theorem execGuidRow {i : Instr} {s : State} {ns : List (BitVec 4)} {up : HexCase} (hs : s.running) (hn : ns.length = 32)
    (hi : i = match up with | .lower => .esc2GuidLower ns | .upper => .esc4GuidUpper ns) :
    (s.room 36 → exec i s = .next (s.numDone i (guidText up ns))) ∧
      (s.overrun 36 → exec i s =
        .next { s.cutShort (s.headLength i +
            4 * ((List.range (s.ocap - s.opos + 1)).filter (fun j => j ∉ [8, 13, 18, 23])).length)
          (guidText up ns) with curSet := .num }) := by
  have hc : inContext (wireCtx s) i = true := by subst hi; cases up <;> rfl
  have hexec : exec i s = tokenForm i (guidForm up ns) s := by subst hi; cases up <;> rfl
  have hbits : encodePayload (wireCtx s) i = (guidPayload up 0 ns).bits := by
    rw [bits_guidPayload]; subst hi; cases up <;> rfl
  have hlen : (guidPayload up 0 ns).length = 36 := by
    simpa using congrArg List.length (widths_guidPayload up hn)
  obtain ⟨hdone, hcut⟩ := tokenForm_payload (body := guidForm up ns) hs hc
    (by rw [guidForm, putGuid_eq_putPayload]; rfl) hbits
  rw [hlen, bytes_guidPayload up hn, ← hexec] at hdone hcut
  refine ⟨hdone, fun hover => ?_⟩
  rw [hcut hover, length_bits_guidPayload_take up hn (by have := hover.2.2; omega)]

/-! ## Templates -/

/-- Positions of a template, the values for their placeholders, and the payload they make: a literal has no field
(R250). -/
inductive TemplatePayload : ByteStr → List Nat → Payload → Prop where
  | nil : TemplatePayload [] [] []
  | literal {t : Byte} {ts : ByteStr} {xs : List Nat} {ps : Payload} (ht : letterWidth t = none)
      (h : TemplatePayload ts xs ps) : TemplatePayload (t :: ts) xs (([], t) :: ps)
  | placeholder {t : Byte} {w : Nat} {ts : ByteStr} {xs : List Nat} {ps : Payload} (ht : letterWidth t = some w)
      (x : Nat) (h : TemplatePayload ts xs ps) : TemplatePayload (t :: ts) (x :: xs) ((field w x, letterByte t x) :: ps)

theorem exists_templatePayload {ts : ByteStr} {xs : List Nat} (h : digitsFit (placeholderWidths ts) xs = true) :
    ∃ ps, TemplatePayload ts xs ps := by
  induction ts generalizing xs with
  | nil =>
    cases xs with
    | nil => exact ⟨[], .nil⟩
    | cons x xs => cases h
  | cons t ts ih =>
    rw [placeholderWidths] at h
    cases hw : letterWidth t with
    | none =>
      rw [hw] at h
      obtain ⟨ps, hps⟩ := ih h
      exact ⟨_, .literal hw hps⟩
    | some w =>
      rw [hw] at h
      cases xs with
      | nil => cases h
      | cons x xs =>
        obtain ⟨ps, hps⟩ := ih (Bool.and_eq_true_iff.mp h).2
        exact ⟨_, .placeholder hw x hps⟩

section
variable {ts : ByteStr} {xs : List Nat} {ps : Payload}

theorem TemplatePayload.putTemplate_eq (h : TemplatePayload ts xs ps) : putTemplate ts xs = putPayload ps := by
  induction h with
  | nil => rfl
  | literal ht _ ih => rw [putTemplate, ht, putPayload, ← ih]; rfl
  | placeholder ht x _ ih => rw [putTemplate, ht, putPayload, ← ih]

theorem TemplatePayload.length_eq (h : TemplatePayload ts xs ps) : ps.length = ts.length := by
  induction h with
  | nil => rfl
  | literal _ _ ih => rw [List.length_cons, ih, List.length_cons]
  | placeholder _ _ _ ih => rw [List.length_cons, ih, List.length_cons]

theorem TemplatePayload.bytes_eq (h : TemplatePayload ts xs ps) : ps.bytes = templateText ts xs := by
  induction h with
  | nil => rfl
  | literal ht _ ih => simp only [templateText, ht, Payload.bytes_cons, ih]
  | placeholder ht x _ ih => simp only [templateText, ht, Payload.bytes_cons, ih]

theorem TemplatePayload.bits_eq (h : TemplatePayload ts xs ps) : ps.bits = fieldsOf (placeholderWidths ts) xs := by
  induction h with
  | nil => rfl
  | literal ht _ ih => rw [placeholderWidths, ht, Payload.bits_cons, ih]; rfl
  | placeholder ht x _ ih => rw [placeholderWidths, ht, Payload.bits_cons, ih, fieldsOf]

/-- The fields of the first positions. -/
theorem TemplatePayload.length_bits_take (h : TemplatePayload ts xs ps) (n : Nat) :
    (Payload.bits (ps.take n)).length = (placeholderWidths (ts.take n)).sum := by
  induction h generalizing n with
  | nil => simp [Payload.bits, placeholderWidths]
  | literal ht _ ih =>
    cases n with
    | zero => rfl
    | succ n =>
      rw [List.take_succ_cons, List.take_succ_cons, Payload.bits_cons, placeholderWidths, ht]
      exact ih n
  | placeholder ht x _ ih =>
    cases n with
    | zero => rfl
    | succ n =>
      rw [List.take_succ_cons, List.take_succ_cons, Payload.bits_cons, placeholderWidths, ht, List.length_append, ih,
        field_length, List.sum_cons]

end

section
variable {s : State} {idx : Fin 5} {rem : Nat} {digits : List Nat} {t : ByteStr}

/-- A template the Preset has, and an unmatched length within it or not (R250). -/
theorem templateForm_run (ht : s.preset.tmpl[idx] = some t) :
    templateForm idx rem digits s =
      if rem ≤ t.length then putTemplate (t.take (t.length - rem)) digits { s with curSet := .num }
      else .error .malformed { s with curSet := .num } := by
  rw [templateForm, inNum_run, Cmd.bind_run, look_run]
  dsimp only
  rw [templateOf_eq, ht]
  exact require_bind_run _ _ _ _

theorem templateForm_absent (ht : s.preset.tmpl[idx] = none) :
    templateForm idx rem digits s = .error .malformed { s with curSet := .num } := by
  rw [templateForm, inNum_run, Cmd.bind_run, look_run]
  dsimp only
  rw [templateOf_eq, ht]
  rfl

theorem sentWidths_eq (ht : s.preset.tmpl[idx] = some t) (hrem : rem ≤ t.length) :
    sentWidths s.preset idx.val rem = placeholderWidths (t.take (t.length - rem)) := by
  rw [sentWidths, templateOf_eq, ht]
  exact if_pos hrem

theorem execTemplateRow (hs : s.running) (ht : s.preset.tmpl[idx] = some t) (hrem : rem ≤ t.length)
    (hfit : digitsFit (placeholderWidths (t.take (t.length - rem))) digits = true) :
    (s.room (t.length - rem) → exec (.esc0Template idx rem digits) s =
        .next (s.numDone (.esc0Template idx rem digits) (templateText (t.take (t.length - rem)) digits))) ∧
      (s.overrun (t.length - rem) → exec (.esc0Template idx rem digits) s =
        .next { s.cutShort (s.headLength (.esc0Template idx rem digits) +
            (placeholderWidths (t.take (s.ocap - s.opos + 1))).sum)
          (templateText (t.take (t.length - rem)) digits) with curSet := .num }) := by
  obtain ⟨ps, hps⟩ := exists_templatePayload hfit
  have hlen : ps.length = t.length - rem := by rw [hps.length_eq, List.length_take_of_le (Nat.sub_le _ _)]
  obtain ⟨hdone, hcut⟩ := tokenForm_payload (i := .esc0Template idx rem digits) (body := templateForm idx rem digits)
    hs rfl
    ((templateForm_run (s := s.consumed _) ht).trans (by rw [if_pos hrem, hps.putTemplate_eq]))
    (by rw [hps.bits_eq, ← sentWidths_eq ht hrem]; rfl)
  rw [hlen, hps.bytes_eq] at hdone hcut
  refine ⟨hdone, fun hover => ?_⟩
  have htaken : (t.take (t.length - rem)).take (s.ocap - s.opos + 1) = t.take (s.ocap - s.opos + 1) := by
    rw [List.take_take, Nat.min_eq_left (by have := hover.2.2; omega)]
  rw [← htaken, ← hps.length_bits_take]
  exact hcut hover

end

/-- Settles O54: each form is its payload, whose fields go with the bytes that fit and the first that does not. -/
theorem escFormsOutputTheirPayload : Obligations.EscFormsOutputTheirPayload := by
  rintro s _ hs rfl
  refine ⟨?hex, fun ns up i hn hi => execGuidRow hs hn hi, fun bs i hi => execBinaryRow hs hi, ?template⟩
  case hex =>
    rintro ns up i _ hi rfl
    exact execHexRow hs hi
  case template =>
    rintro idx rem digits _ rfl
    refine ⟨?_, fun ht => tokenForm_malformed hs rfl (templateForm_absent (s := s.consumed _) ht)⟩
    rintro t bs ht
    refine ⟨?_, fun hlt => tokenForm_malformed hs rfl ?_⟩
    · rintro rfl hrem hfit
      exact execTemplateRow hs ht hrem hfit
    · exact (templateForm_run (s := s.consumed _) ht).trans (if_neg (Nat.not_le.mpr hlt))

end Sys2Proof.Machine
end

section
/-!
Matches as back-references: the bytes that the back-reference of a match copies are the text at the cursor (R236, R271,
R277).
-/

namespace Sys2Proof.Machine

section
variable {e d : State} {i : Instr} {m : Match}

/-- A token that outputs bytes of the text at the cursor restores the text up to their end (R382). -/
theorem tokenDone_restores {bs : ByteStr} (n : Nat) (hw : d.out.wf = true)
    (hbefore : ∀ a, a < d.opos → d.out.read a = e.inp.read a)
    (hbs : ∀ x, x < bs.length → bs.getD x 0 = e.inp.read (d.opos + x)) :
    ∀ a, a < (d.tokenDone n bs).opos → (d.tokenDone n bs).out.read a = e.inp.read a := by
  intro a ha
  have ha : a < d.opos + bs.length := ha
  refine (Memory.read_fill hw d.opos bs a).trans ?_
  by_cases hold : a < d.opos
  · rw [if_neg (by omega), hbefore a hold]
  · rw [if_pos (by omega), hbs _ (by omega), Nat.add_sub_cancel' (Nat.le_of_not_lt hold)]

/-- The source of a match in the current string lies before the cursor, so the copy does not overlap it (R271, R272). -/
theorem currentMatch_bytes (hle : m.len ≤ m.dist) (hcursor : m.dist ≤ d.opos)
    (hbefore : ∀ a, a < d.opos → d.out.read a = e.inp.read a)
    (hmatch : ∀ x, x < m.len → e.inp.read (d.opos - m.dist + x) = e.inp.read (d.opos + x)) {x : Nat} (hx : x < m.len) :
    ((List.range m.len).map fun k => d.out.read (d.opos - m.dist + k % m.dist)).getD x 0 = e.inp.read (d.opos + x) := by
  have hmod : x % m.dist = x := Nat.mod_eq_of_lt (by omega)
  rw [List.getD_eq_getElem _ _ (by simpa using hx), List.getElem_map, List.getElem_range, hmod,
    hbefore _ (by omega), hmatch x hx]

theorem lineMatch_bytes {line : ByteStr}
    (hmatch : ∀ x, x < m.len → line.getD (m.dist + x) 0 = e.inp.read (d.opos + x)) {x : Nat} (hx : x < m.len) :
    ((line.drop m.dist).take m.len).getD x 0 = e.inp.read (d.opos + x) := by
  rw [← hmatch x hx, List.getD_eq_getElem?_getD, List.getElem?_take_of_lt hx, List.getElem?_drop,
    ← List.getD_eq_getElem?_getD]

/-- The back-reference of a candidate match outputs the text at the cursor (R235, R236, R277). -/
theorem execBackref_candidate (hm : isCandidate e d.opos m) (hd : d.running) (hlhen : d.lhen = e.lhen)
    (hlh : d.lh = e.lh) (hroom : d.room m.len) (hw : d.out.wf = true)
    (hbefore : ∀ a, a < d.opos → d.out.read a = e.inp.read a)
    (hi : i = if d.lhen then .backref1 m.len (if m.line = 0 then m.dist - 4 else m.dist) m.line
      else .backref0 m.len m.dist) :
    ∃ bs : ByteStr, exec i d = .next (d.tokenDone (d.formLength i) bs) ∧ bs.length = m.len ∧
      ∀ x, x < m.len → bs.getD x 0 = e.inp.read (d.opos + x) := by
  obtain ⟨hcurrent, hcurrentLine, hearlier, -⟩ := copyFormsRepeatEarlierBytes d hd
  obtain ⟨hmin, -, -, -, ⟨hline, hle, hcursor, -, hmatch⟩ | ⟨hhist, hline, -, -, line, hlookup, hinside, hmatch⟩⟩ := hm
  · have hdist : 4 ≤ m.dist := by simp only [Config.minMatch] at hmin; omega
    refine ⟨_, ?_, by rw [List.length_map, List.length_range],
      fun x hx => currentMatch_bytes hle hcursor hbefore hmatch hx⟩
    cases hl : d.lhen with
    | false =>
      rw [if_neg (by simp [hl])] at hi
      exact ((hcurrent _ _ i _ hl hi hdist rfl).1 hw hcursor).1 hroom
    | true =>
      rw [if_pos hl, if_pos hline, hline] at hi
      have h := hcurrentLine _ (m.dist - 4) i _ hl hi rfl
      rw [Nat.sub_add_cancel hdist] at h
      exact (h.1 hw hcursor).1 hroom
  · have hl : d.lhen = true := hlhen.trans hhist
    rw [if_pos hl, if_neg (by omega), ← Nat.sub_add_cancel hline] at hi
    refine ⟨_, ?_, by rw [List.length_take, List.length_drop]; omega, fun x hx => lineMatch_bytes hmatch hx⟩
    exact (((hearlier _ _ _ i hl hi).1 line _ (hlh ▸ hlookup) rfl).1 hinside).1 hroom

end

/-- Settles O60: the back-reference writes the text at the cursor behind the text before it. -/
theorem matchesRestoreTheText : Obligations.MatchesRestoreTheText := by
  intro e d m hm hd hlhen hlh hroom hw hbefore i hi
  obtain ⟨bs, hexec, hlen, hbs⟩ := execBackref_candidate hm hd hlhen hlh hroom hw hbefore hi
  exact ⟨_, hexec, rfl, congrArg (d.opos + ·) hlen, tokenDone_restores _ hw hbefore (hlen ▸ hbs)⟩

end Sys2Proof.Machine
end

section
/-!
The matcher's search (R271 to R277): it visits the places a source may start at in the order of R276, and keeps the best
candidate of those behind it.
-/

namespace Sys2Proof.Machine

/-! ## The loops of one place -/

/-- What both extension loops compute: the greatest length, up to the bound, all of whose positions pass the loop's test
(R271, R277). -/
theorem le_extension {f : Nat → Nat → Nat} {p : Nat → Prop} [DecidablePred p] (hstop : ∀ k, f 0 k = k)
    (hstep : ∀ n k, f (n + 1) k = if p k then f n (k + 1) else k) {n k c : Nat} :
    c ≤ f n k ↔ c ≤ k + n ∧ ∀ x, k ≤ x → x < c → p x := by
  induction n generalizing k with
  | zero =>
    rw [hstop]
    exact ⟨fun h => ⟨h, fun x hkx hxc => absurd hxc (by omega)⟩, And.left⟩
  | succ n ih =>
    rw [hstep]
    by_cases hp : p k
    · rw [if_pos hp, ih, Nat.add_right_comm, Nat.add_assoc]
      refine and_congr_right fun _ => ⟨fun h x hkx hxc => ?_, fun h x hkx => h x (Nat.le_of_succ_le hkx)⟩
      obtain rfl | hlater := hkx.eq_or_lt
      · exact hp
      · exact h x hlater hxc
    · rw [if_neg hp]
      exact ⟨fun h => ⟨by omega, fun x hkx hxc => absurd hxc (by omega)⟩,
        fun h => Nat.le_of_not_lt fun hkc => hp (h.2 k le_rfl hkc)⟩

theorem le_extendMatch {m : Memory} {ilen l j n c : Nat} :
    c ≤ extendMatch m ilen l j n 0 ↔
      c ≤ n ∧ ∀ x, x < c → l + x < ilen ∧ j + x < l ∧ m.read (j + x) = m.read (l + x) := by
  simpa using le_extension (f := extendMatch m ilen l j) (n := n) (k := 0) (c := c) (fun _ => rfl) (fun _ _ => rfl)

theorem le_extendLine {m : Memory} {ilen l p n c : Nat} {line : ByteStr} :
    c ≤ extendLine m ilen l p line n 0 ↔
      c ≤ n ∧ ∀ x, x < c → l + x < ilen ∧ p + x < line.length ∧ line.getD (p + x) 0 = m.read (l + x) := by
  simpa using le_extension (f := extendLine m ilen l p line) (n := n) (k := 0) (c := c) (fun _ => rfl) (fun _ _ => rfl)

section
variable {s : State} {l : Nat}

theorem trimMatch_le (e : Nat) : trimMatch s.inp s.ilen l e ≤ e := by
  induction e with
  | zero => exact le_rfl
  | succ e ih =>
    rw [trimMatch]
    split
    · exact ih.trans (Nat.le_succ e)
    · exact le_rfl

theorem trimMatch_endsWhole {e : Nat} (h : 0 < trimMatch s.inp s.ilen l e) :
    endsWhole s l (trimMatch s.inp s.ilen l e) := by
  induction e with
  | zero => exact absurd h (Nat.lt_irrefl 0)
  | succ e ih =>
    rw [trimMatch] at h ⊢
    split at h
    next hcut => rw [if_pos hcut]; exact ih h
    next hcut => rw [if_neg hcut]; exact fun hin => by simpa [hin] using hcut

/-- `Trim` gives the longest whole length (R275). -/
theorem le_trimMatch {c e : Nat} (hwhole : endsWhole s l c) (hc : c ≤ e) : c ≤ trimMatch s.inp s.ilen l e := by
  induction e with
  | zero => exact hc
  | succ e ih =>
    rw [trimMatch]
    split
    next hcut =>
      refine ih (Nat.le_of_lt_succ (hc.lt_of_ne ?_))
      rintro rfl
      simp [hwhole hcut.1] at hcut
    next => exact hc

/-! ## The candidates of one place -/

theorem isCandidate.len_pos {b : Match} (h : isCandidate s l b) : 0 < b.len := Nat.lt_of_lt_of_le (by decide) h.1

/-- Where the source of a candidate stands: in the current string, or in a line of the history (R271, R277). -/
theorem isCandidate.source {b : Match} (h : isCandidate s l b) :
    (b.line = 0 ∧ Config.minMatch ≤ b.dist ∧ b.dist ≤ l ∧ b.dist ≤ matchMaxDistance) ∨
      (s.lhen = true ∧ 1 ≤ b.line ∧ b.line < Config.countLimit ∧ b.dist < Config.countLimit ∧
        ∃ bytes, s.lh[b.line - 1]? = some bytes ∧ b.dist + Config.minMatch ≤ bytes.length) := by
  obtain ⟨hmin, -, -, -, ⟨hline, hle, hl, hmax, -⟩ | ⟨hlhen, hline, hlimit, hdist, bytes, hbytes, hinside, -⟩⟩ := h
  · exact .inl ⟨hline, hmin.trans hle, hl, hmax⟩
  · exact .inr ⟨hlhen, hline, hlimit, hdist, bytes, hbytes, by omega⟩

/-- The candidates whose source starts `d` bytes before the cursor (R271, R273, R275). -/
theorem isCandidate_current {c d : Nat} (hl : d ≤ l) (hd : d ≤ matchMaxDistance) :
    isCandidate s l ⟨c, d, 0⟩ ↔
      Config.minMatch ≤ c ∧ endsWhole s l c ∧ c ≤ extendMatch s.inp s.ilen l (l - d) matchMaxLength 0 := by
  rw [le_extendMatch]
  constructor
  · rintro ⟨hmin, hmax, hin, hwhole, ⟨-, hsource, -, -, hmatch⟩ | ⟨-, hline, -⟩⟩
    · dsimp only at hin hsource
      exact ⟨hmin, hwhole, hmax, fun x hx => ⟨by omega, by omega, hmatch x hx⟩⟩
    · exact absurd hline (Nat.not_succ_le_zero 0)
  · rintro ⟨hmin, hwhole, hmax, hext⟩
    have hpos : 0 < c := Nat.lt_of_lt_of_le (by decide) hmin
    obtain ⟨hin, hsource, -⟩ := hext (c - 1) (Nat.sub_lt hpos Nat.one_pos)
    exact ⟨hmin, hmax, by dsimp only; omega, hwhole,
      .inl ⟨rfl, by dsimp only; omega, hl, hd, fun x hx => (hext x hx).2.2⟩⟩

/-- The candidates whose source starts at position `p` of line `i` (R273, R275, R277). -/
theorem isCandidate_line {c p i : Nat} {line : ByteStr} (hlhen : s.lhen = true) (hi : 1 ≤ i)
    (hlimit : i < Config.countLimit) (hp : p < Config.countLimit) (hline : s.lh[i - 1]? = some line) :
    isCandidate s l ⟨c, p, i⟩ ↔
      Config.minMatch ≤ c ∧ endsWhole s l c ∧ c ≤ extendLine s.inp s.ilen l p line matchMaxLength 0 := by
  rw [le_extendLine]
  constructor
  · rintro ⟨hmin, hmax, hin, hwhole, ⟨rfl, -⟩ | ⟨-, -, -, -, line', hline', hsource, hmatch⟩⟩
    · exact absurd hi (Nat.not_succ_le_zero 0)
    · obtain rfl : line = line' := Option.some.inj (hline.symm.trans hline')
      dsimp only at hin hsource
      exact ⟨hmin, hwhole, hmax, fun x hx => ⟨by omega, by omega, hmatch x hx⟩⟩
  · rintro ⟨hmin, hwhole, hmax, hext⟩
    have hpos : 0 < c := Nat.lt_of_lt_of_le (by decide) hmin
    obtain ⟨hin, hsource, -⟩ := hext (c - 1) (Nat.sub_lt hpos Nat.one_pos)
    exact ⟨hmin, hmax, by dsimp only; omega, hwhole,
      .inr ⟨hlhen, hi, hlimit, hp, line, hline, by dsimp only; omega, fun x hx => (hext x hx).2.2⟩⟩

/-! ## The best candidate so far -/

/-- The source starts at a place the search visits before `(line, dist)`: the current string by distance, then each line by
position (R271, R277). -/
abbrev Match.before (b : Match) (line dist : Nat) : Prop := b.line < line ∨ (b.line = line ∧ b.dist < dist)

/-- The search's invariant: `best` is preferred to every candidate at a place visited before `(line, dist)`, or has length
0 where there is none. -/
def bestBefore (s : State) (l line dist : Nat) (best : Match) : Prop :=
  (best.len = 0 ∧ ∀ b, isCandidate s l b → ¬ b.before line dist) ∨
    (isCandidate s l best ∧ best.before line dist ∧ ∀ b, isCandidate s l b → b.before line dist → preferred best b)

/-- What the search finds: a candidate preferred to every other, or length 0 where there is none. -/
def bestCandidate (s : State) (l : Nat) (best : Match) : Prop :=
  (best.len = 0 ∧ ∀ b, ¬ isCandidate s l b) ∨ (isCandidate s l best ∧ ∀ b, isCandidate s l b → preferred best b)

variable {line dist : Nat} {best : Match}

/-- The search is over when every candidate lies behind it. -/
theorem bestBefore.bestCandidate (h : bestBefore s l line dist best)
    (hall : ∀ b, isCandidate s l b → b.before line dist) : bestCandidate s l best := by
  obtain ⟨hlen, hno⟩ | ⟨hbest, -, hpref⟩ := h
  · exact .inl ⟨hlen, fun b hb => hno b hb (hall b hb)⟩
  · exact .inr ⟨hbest, fun b hb => hpref b hb (hall b hb)⟩

/-- Places that hold no candidate may be passed over. -/
theorem bestBefore.skip {line' dist' : Nat} (h : bestBefore s l line dist best)
    (hle : best.before line dist → best.before line' dist')
    (hnone : ∀ b, isCandidate s l b → b.before line' dist' → b.before line dist) :
    bestBefore s l line' dist' best := by
  obtain ⟨hlen, hno⟩ | ⟨hbest, hplace, hpref⟩ := h
  · exact .inl ⟨hlen, fun b hb hbefore => hno b hb (hnone b hb hbefore)⟩
  · exact .inr ⟨hbest, hle hplace, fun b hb hbefore => hpref b hb (hnone b hb hbefore)⟩

/-- One turn of either scan: the place's longest extension, trimmed, against the best so far (R271, R273, R276). -/
theorem bestBefore.betterMatch {e : Nat} (h : bestBefore s l line dist best)
    (hplace : ∀ c, isCandidate s l ⟨c, dist, line⟩ ↔ Config.minMatch ≤ c ∧ endsWhole s l c ∧ c ≤ e) :
    bestBefore s l line (dist + 1) (betterMatch best (trimMatch s.inp s.ilen l e) dist line) := by
  have hnew : Config.minMatch ≤ trimMatch s.inp s.ilen l e →
      isCandidate s l ⟨trimMatch s.inp s.ilen l e, dist, line⟩ := fun hmin =>
    (hplace _).mpr ⟨hmin, trimMatch_endsWhole (Nat.lt_of_lt_of_le (by decide) hmin), trimMatch_le e⟩
  have hlongest : ∀ b, isCandidate s l b → b.before line (dist + 1) → b.before line dist ∨
      (b.line = line ∧ b.dist = dist ∧ Config.minMatch ≤ b.len ∧ b.len ≤ trimMatch s.inp s.ilen l e) := by
    intro b hb hbefore
    by_cases hhere : b.line = line ∧ b.dist = dist
    · obtain ⟨len, bdist, bline⟩ := b
      obtain ⟨rfl, rfl⟩ := hhere
      obtain ⟨hmin, hwhole, hext⟩ := (hplace len).mp hb
      exact .inr ⟨rfl, rfl, hmin, le_trimMatch hwhole hext⟩
    · exact .inl (by omega)
  generalize trimMatch s.inp s.ilen l e = k at hnew hlongest ⊢
  rw [Machine.betterMatch]
  split
  case isTrue hbetter =>
    refine .inr ⟨hnew hbetter.1, .inr ⟨rfl, Nat.lt_succ_self _⟩, fun b hb hbefore => ?_⟩
    obtain hold | ⟨hline, hdist, -, hlen⟩ := hlongest b hb hbefore
    · obtain ⟨-, hno⟩ | ⟨-, -, hpref⟩ := h
      · exact absurd hold (hno b hb)
      · have := hpref b hb hold
        exact .inl (by dsimp only; omega)
    · dsimp only [preferred]; omega
  case isFalse hkept =>
    obtain ⟨hlen, hno⟩ | ⟨hbest, hbefore, hpref⟩ := h
    · refine .inl ⟨hlen, fun b hb hbb => ?_⟩
      obtain hold | ⟨-, -, hmin, hle⟩ := hlongest b hb hbb
      · exact hno b hb hold
      · simp only [Config.minMatch] at hmin hkept; omega
    · refine .inr ⟨hbest, by omega, fun b hb hbb => ?_⟩
      obtain hold | ⟨hline, hdist, hmin, hle⟩ := hlongest b hb hbb
      · exact hpref b hb hold
      · dsimp only [preferred]; omega

/-! ## The scans -/

theorem scanBack_bestBefore {n : Nat} (hl : dist + n ≤ l + 1) (hmax : dist + n ≤ matchMaxDistance + 1)
    (h : bestBefore s l 0 dist best) :
    bestBefore s l 0 (dist + n) (scanBack s.inp s.ilen l n (l - dist) best) := by
  induction n generalizing dist best with
  | zero => exact h
  | succ n ih =>
    rw [scanBack, Nat.sub_sub, Nat.sub_sub_self (by omega : dist ≤ l), Nat.add_comm n, ← Nat.add_assoc]
    exact ih (by omega) (by omega) (h.betterMatch fun c => isCandidate_current (by omega) (by omega))

/-- The in-string search settles the candidates of the current string (R271). -/
theorem findInString_bestBefore : bestBefore s l 1 0 (findInString s.inp s.ilen l) := by
  have hstart : bestBefore s l 0 Config.minMatch ⟨0, 0, 0⟩ := by
    refine .inl ⟨rfl, fun b hb hbefore => ?_⟩
    obtain ⟨hline, hmin, -⟩ | ⟨-, hline, -⟩ := hb.source <;> omega
  rw [findInString, scanCount]
  split
  case isTrue hshort =>
    refine hstart.skip (fun _ => .inl Nat.zero_lt_one) fun b hb hbefore => ?_
    obtain ⟨hline, hmin, hl, -⟩ | ⟨-, hline, -⟩ := hb.source <;> omega
  case isFalse hlong =>
    have hreach : Config.minMatch ≤ matchMaxDistance := by decide
    refine (scanBack_bestBefore (by omega) (by omega) hstart).skip (fun _ => by omega)
      fun b hb hbefore => ?_
    obtain ⟨hline, -, hl, hmax⟩ | ⟨-, hline, -⟩ := hb.source <;> omega

section
variable {i : Nat} {bytes : ByteStr} (hlhen : s.lhen = true) (hi : 1 ≤ i) (hlimit : i < Config.countLimit)
  (hline : s.lh[i - 1]? = some bytes)
include hlhen hi hlimit hline

theorem scanLine_bestBefore {n p : Nat} (hp : p + n ≤ Config.countLimit) (h : bestBefore s l i p best) :
    bestBefore s l i (p + n) (scanLine s.inp s.ilen l i bytes n p best) := by
  induction n generalizing p best with
  | zero => exact h
  | succ n ih =>
    rw [scanLine, Nat.add_comm n, ← Nat.add_assoc]
    exact ih (by omega) (h.betterMatch fun c => isCandidate_line hlhen hi hlimit (by omega) hline)

/-- The scan of a line settles the candidates of that line (R277). -/
theorem scanLine_bestBefore_next (h : bestBefore s l i 0 best) :
    bestBefore s l (i + 1) 0 (scanLine s.inp s.ilen l i bytes (linePositions bytes) 0 best) := by
  have hcount : linePositions bytes ≤ Config.countLimit := by
    rw [linePositions]; simp only [Config.countLimit]; split <;> omega
  refine (scanLine_bestBefore hlhen hi hlimit hline (by omega) h).skip (fun _ => by omega)
    fun b hb hbefore => ?_
  obtain ⟨hcurrent, -⟩ | ⟨-, -, -, hdist, bytes', hline', hinside⟩ := hb.source
  · exact .inl (by omega)
  · by_cases hhere : b.line = i
    · rw [hhere, hline] at hline'
      obtain rfl := Option.some.inj hline'
      refine .inr ⟨hhere, ?_⟩
      rw [linePositions]
      split <;> omega
    · exact .inl (by omega)

end

/-- `FindLH` from line `i` on (R277). -/
theorem scanLines_bestCandidate {i : Nat} {lines : List ByteStr} (hlhen : s.lhen = true) (hi : 1 ≤ i)
    (hlines : s.lh.drop (i - 1) = lines) (h : bestBefore s l i 0 best) :
    bestCandidate s l (scanLines s.inp s.ilen l i lines best) := by
  induction lines generalizing i best with
  | nil =>
    have hend : s.lh.length ≤ i - 1 := List.drop_eq_nil_iff.mp hlines
    refine h.bestCandidate fun b hb => .inl ?_
    obtain ⟨hcurrent, -⟩ | ⟨-, -, -, -, bytes, hbytes, -⟩ := hb.source
    · omega
    · have hlast := (List.getElem?_eq_some_iff.mp hbytes).1
      omega
  | cons bytes lines ih =>
    rw [scanLines]
    split
    case isTrue hlimit =>
      refine h.bestCandidate fun b hb => .inl ?_
      obtain ⟨hcurrent, -⟩ | ⟨-, -, hline, -⟩ := hb.source <;> omega
    case isFalse hlimit =>
      have hline : s.lh[i - 1]? = some bytes := by
        rw [← List.head?_drop, hlines, List.head?_cons]
      have hrest : s.lh.drop (i + 1 - 1) = lines := by
        rw [Nat.sub_add_comm hi, ← List.tail_drop, hlines, List.tail_cons]
      exact ih (Nat.le_succ_of_le hi) hrest (scanLine_bestBefore_next hlhen hi (Nat.lt_of_not_le hlimit) hline h)

/-- The whole search (R271, R276, R277). -/
theorem findMatch_bestCandidate : bestCandidate s l (findMatch s l) := by
  rw [findMatch]
  split
  case isTrue hlhen => exact scanLines_bestCandidate hlhen le_rfl rfl findInString_bestBefore
  case isFalse hlhen =>
    refine findInString_bestBefore.bestCandidate fun b hb => .inl ?_
    obtain ⟨hcurrent, -⟩ | ⟨hhist, -⟩ := hb.source
    · omega
    · exact absurd hhist hlhen

end

/-! ## The command -/

section
variable {s : State} (hs : s.canEncode)
include hs

theorem execSmFind_range (h : s.ilen < s.a0.toNat) : exec .smFind s = .next { s with status := .range } := by
  refine modeCommand_raises hs ?_
  simp only [Cmd.bind_run, opA0_run, readState_run, require_run, if_neg (Nat.not_le.mpr h)]

/-- Within IN the command writes the result registers of the search (R270, R271). -/
theorem execSmFind_setMatch {t : State} (h : s.a0.toNat ≤ s.ilen)
    (hset : setMatch (findMatch s s.a0.toNat) s = .ok () t) : exec .smFind s = .next { t with status := .ok } := by
  refine (modeCommand_run hs.1 hs.2).trans (congrArg _ (endCommand_ok ?_))
  simpa only [Cmd.bind_run, opA0_run, readState_run, require_run, if_pos h] using hset

end

theorem setMatch_run_none {m : Match} (h : m.len = 0) (s : State) :
    setMatch m s = .ok () { s with r0 := 0, r1 := 0, r2 := 0, r3 := 0 } := by
  rw [setMatch, if_pos h]; rfl

theorem setMatch_run_found {m : Match} (h : m.len ≠ 0) (s : State) :
    setMatch m s = .ok ()
      { s with
        r0 := 1, r1 := BitVec.ofNat 32 m.len, r2 := BitVec.ofNat 32 m.dist, r3 := BitVec.ofNat 32 m.line } := by
  rw [setMatch, if_neg h]; rfl

/-- Settles O45: the search visits places in the order of preference and keeps the best candidate behind it. -/
theorem findReportsThePreferredMatch : Obligations.FindReportsThePreferredMatch := by
  rintro s _ hs rfl
  refine ⟨execSmFind_range hs, fun hl => ?_⟩
  obtain ⟨hlen, hnone⟩ | ⟨hbest, hpref⟩ := findMatch_bestCandidate (s := s) (l := s.a0.toNat)
  · exact .inr ⟨hnone, execSmFind_setMatch hs hl (setMatch_run_none hlen s)⟩
  · have hlen : (findMatch s s.a0.toNat).len ≠ 0 := hbest.len_pos.ne'
    exact .inl ⟨_, hbest, hpref, execSmFind_setMatch hs hl (setMatch_run_found hlen s)⟩

end Sys2Proof.Machine
end

section
/-!
`DEC.STEP` at the end of IN and on a bare character code of the resting set (R291, R292, R295).
-/

namespace Sys2Proof.Machine

section
variable {s : State} {bits : BitStr}

/-- Bits that begin what is left of IN stand at `ROFF`, none of them padding (R94, R124). -/
theorem State.holds_of_prefix (hne : bits ≠ []) (h : bits <+: remainingBits s) : s.holds bits := by
  have hlen := h.length_le
  have hpos := List.length_pos_iff.mpr hne
  rw [remainingBits, List.length_map, List.length_range] at hlen
  refine ⟨State.spells_of_prefix (n := 8 * s.ilen - s.roff) ?_, by omega⟩
  suffices hbits : s.nextBits (8 * s.ilen - s.roff) = remainingBits s from hbits ▸ h
  refine List.map_congr_left fun k hk => if_neg ?_
  rw [List.mem_range] at hk
  omega

/-- At or past the end of IN no token is fetched (R292). -/
theorem fetchAndRun_end (h : 8 * s.ilen ≤ s.roff) : fetchAndRun s = .error .endInput s := by
  rw [fetchAndRun, Cmd.bind_run, readState_run]
  dsimp only
  rw [Cmd.bind_run, require_run, if_neg (Nat.not_lt.mpr h)]

/-- A turn that starts at or past the end of IN halts END_INPUT, and no byte is output (R291, R292). -/
theorem automaton_end (hrun : s.halt = .run) (h : 8 * s.ilen ≤ s.roff) :
    automaton fetchAndRun s = .error .endInput { s with r0 := 0, halt := .endInput } := by
  rw [automaton, if_pos hrun, fetchAndRun_end h]
  dsimp only
  rw [Nat.sub_self]
  rfl

/-- A step on a bare character code of the resting set (R292, R295). -/
theorem execDecStep_bareCharacter {set : SymSet} {v : Fin 28} {x : Byte} (hs : s.running) (hw : s.preset.wf = true)
    (hset : restingSymbols s.curSet = some set) (hv : v ≠ switchIndex) (hbits : s.preset.v v <+: remainingBits s)
    (hroom : s.room 1) (hx : s.preset.symbol set v = .chr x) :
    exec .decStep s = .next (s.tokenDone (s.preset.v v).length [outputByte set s.upper x]) :=
  (token_symbol hw hset hv hx).execDecStep hs hw (State.holds_of_prefix (Preset.v_ne_nil hw v) hbits) (.inr hroom)

end

/-- An ALPHA letter is output in upper case while `UPPER` is 1 (R295). -/
theorem outputByte_alpha (up : Bool) (c : Byte) :
    outputByte .alpha up c = if up = true ∧ 0x61 ≤ c.toNat ∧ c.toNat ≤ 0x7A then c - 32 else c := by
  simp [outputByte, isLowerLetter]

/-- Settles O46: the fetch fails at the end of IN, and a bare character code is a token of one byte. -/
theorem decStepEndsOrOutputsACharacter : Obligations.DecStepEndsOrOutputsACharacter := by
  intro s hs hrun
  refine ⟨fun h => decCommand_error hs (automaton_end hrun h), fun v c hw hreos hv hbits hroom =>
    ⟨fun hset hc => ?alpha, fun hset hc => ?num⟩⟩
  case alpha =>
    rw [execDecStep_bareCharacter ⟨hs, hrun, hreos⟩ hw (by rw [hset]; rfl) hv hbits hroom hc, outputByte_alpha]
  case num =>
    rw [execDecStep_bareCharacter ⟨hs, hrun, hreos⟩ hw (by rw [hset]; rfl) hv hbits hroom hc,
      outputByte_of_ne_alpha (set := .num) nofun]

end Sys2Proof.Machine
end

section
/-!
The automaton does not look at `STATUS`: a turn from a state in which another status was written ends as the turn from that
state, with the other status in place of the first.
-/

namespace Sys2Proof.Machine

/-- A status in place of the one the state after a run has. -/
def restated {α : Type} (x : Status) : EStateM.Result Status State α → EStateM.Result Status State α
  | .ok a t => .ok a { t with status := x }
  | .error e t => .error e { t with status := x }

/-- A piece of pseudocode neither looks at `STATUS` nor writes it. -/
def StatusBlind {α : Type} (c : Cmd α) : Prop := ∀ s x, c { s with status := x } = restated x (c s)

/-! ## The constructs of the pseudocode -/

section
variable {α β : Type}

theorem StatusBlind.bind {c : Cmd α} {f : α → Cmd β} (hc : StatusBlind c) (hf : ∀ a, StatusBlind (f a)) :
    StatusBlind (c >>= f) := by
  intro s x
  rw [Cmd.bind_run, Cmd.bind_run, hc s x]
  cases c s with
  | ok a t => exact hf a t x
  | error e t => rfl

theorem StatusBlind.pure (a : α) : StatusBlind (pure a : Cmd α) := fun _ _ => rfl

theorem StatusBlind.raise (e : Status) : StatusBlind (raise e : Cmd α) := fun _ _ => rfl

theorem StatusBlind.ite {c : Prop} [Decidable c] {x y : Cmd α} (hx : StatusBlind x) (hy : StatusBlind y) :
    StatusBlind (if c then x else y) := by
  split <;> assumption

/-- What is done with a function of the state that does not look at `STATUS`. -/
theorem StatusBlind.look_bind {f : State → α} {k : α → Cmd β} (hk : ∀ a, StatusBlind (k a))
    (hf : ∀ s x, f { s with status := x } = f s := by intros; rfl) : StatusBlind (look f >>= k) := by
  intro s x
  rw [Cmd.bind_run, Cmd.bind_run, look_run, look_run, hf s x]
  exact hk (f s) s x

/-- What is done with the state that is read does not look at its status. -/
theorem StatusBlind.readState_bind {f : State → Cmd α} (hf : ∀ s, StatusBlind (f s))
    (heq : ∀ s x, f { s with status := x } = f s := by intros; rfl) : StatusBlind (readState >>= f) := by
  intro s x
  rw [Cmd.bind_run, Cmd.bind_run, readState_run, readState_run]
  dsimp only
  rw [heq s x]
  exact hf s s x

/-- A write that neither looks at `STATUS` nor writes it. -/
theorem StatusBlind.update {f : State → State}
    (hf : ∀ s x, f { s with status := x } = { f s with status := x } := by intros; rfl) : StatusBlind (update f) := by
  intro s x
  rw [update_run, hf s x]
  rfl

theorem StatusBlind.require (c : Prop) [Decidable c] (e : Status) : StatusBlind (require c e) :=
  .ite (.pure ()) (.raise e)

end

/-! ## Flags, bytes and bits -/

theorem statusBlind_eos : StatusBlind eos := by
  intro s x
  rw [eos_run, eos_run]
  dsimp only
  split <;> rfl

theorem statusBlind_enterSet (h : SetId) : StatusBlind (enterSet h) := by
  cases h with
  | alpha | num | sym | dict | delta => exact fun _ _ => rfl

theorem statusBlind_setUpper (b : Bool) : StatusBlind (setUpper b) := fun _ _ => rfl

theorem statusBlind_setPrevCp (cp : Nat) : StatusBlind (setPrevCp cp) := fun _ _ => rfl

theorem statusBlind_putByte (b : Byte) : StatusBlind (putByte b) := by
  intro s x
  rw [putByte_run, putByte_run]
  dsimp only
  split
  · rfl
  · split <;> rfl

theorem statusBlind_putBytes (bs : ByteStr) : StatusBlind (putBytes bs) := by
  induction bs with
  | nil => exact .pure ()
  | cons b bs ih => exact (statusBlind_putByte b).bind fun _ => ih

theorem statusBlind_getBit : StatusBlind getBit := by
  intro s x
  rw [getBit_run, getBit_run]
  rfl

theorem statusBlind_getBits (n : Nat) : StatusBlind (getBits n) := by
  intro s x
  rw [getBits_run, getBits_run]
  rfl

theorem statusBlind_readStepFrom (i n : Nat) : StatusBlind (readStepFrom i n) := by
  induction n generalizing i with
  | zero => exact .pure i
  | succ n ih => exact statusBlind_getBit.bind fun _ => .ite (ih _) (.pure i)

theorem statusBlind_readStep (c : Nat) : StatusBlind (readStep c) := statusBlind_readStepFrom 0 c

theorem statusBlind_readCnt : StatusBlind readCnt :=
  (statusBlind_readStep 4).bind fun _ => (statusBlind_getBits _).bind fun _ => .pure _

theorem statusBlind_readDeltaHead : StatusBlind readDeltaHead :=
  (statusBlind_readStep 5).bind fun _ => .ite
    ((statusBlind_readStep 4).bind fun _ => .pure _)
    (statusBlind_getBit.bind fun _ => (statusBlind_getBits _).bind fun _ => .pure _)

theorem statusBlind_readCode {α : Type} (codes : List (α × BitStr)) (acc : BitStr) (n : Nat) :
    StatusBlind (readCode codes acc n) := by
  induction n generalizing acc with
  | zero => exact .raise _
  | succ n ih =>
    refine statusBlind_getBit.bind fun b => ?_
    cases findCode codes (acc ++ [b]) with
    | none => exact ih _
    | some x => exact .pure x

theorem StatusBlind.readElement {α : Type} {read : Cmd α} (h : StatusBlind read) : StatusBlind (readElement read) := by
  intro s x
  rw [readElement_run, readElement_run, h s x]
  cases read s with
  | ok a t | error e t => dsimp only [restated]; split <;> rfl

theorem statusBlind_elementH : StatusBlind (readElement readH) :=
  .readElement <| StatusBlind.look_bind fun _ => statusBlind_readCode _ _ _

theorem statusBlind_elementV : StatusBlind (readElement readV) :=
  .readElement <| StatusBlind.look_bind fun _ => statusBlind_readCode _ _ _

/-! ## The expansions -/

theorem statusBlind_copyBack (dist n : Nat) : StatusBlind (copyBack dist n) := by
  induction n with
  | zero => exact .pure ()
  | succ n ih => exact StatusBlind.look_bind fun _ => (statusBlind_putByte _).bind fun _ => ih

theorem statusBlind_copyRef (len x line : Nat) : StatusBlind (copyRef len x line) := by
  refine .readState_bind fun s => .ite ((StatusBlind.require _ _).bind fun _ => statusBlind_copyBack _ _) ?_
  cases s.lh[line - 1]? with
  | none => exact .raise _
  | some l => exact (StatusBlind.require _ _).bind fun _ => statusBlind_putBytes _

theorem statusBlind_expandBackref : StatusBlind expandBackref :=
  statusBlind_readCnt.bind fun _ => statusBlind_readCnt.bind fun _ => StatusBlind.look_bind fun _ => .ite
    (statusBlind_readCnt.bind fun _ => statusBlind_eos.bind fun _ => statusBlind_copyRef _ _ _)
    (statusBlind_eos.bind fun _ => statusBlind_copyRef _ _ _)

theorem statusBlind_putRepeated (b : Byte) (n : Nat) : StatusBlind (putRepeated b n) := by
  induction n with
  | zero => exact .pure ()
  | succ n ih => exact (statusBlind_putByte b).bind fun _ => ih

theorem statusBlind_expandRepeat : StatusBlind expandRepeat :=
  statusBlind_readCnt.bind fun _ => statusBlind_eos.bind fun _ => .readState_bind fun _ =>
    (StatusBlind.require _ _).bind fun _ => statusBlind_putRepeated _ _

theorem statusBlind_hexLoop (up : HexCase) (n : Nat) : StatusBlind (hexLoop up n) := by
  induction n with
  | zero => exact .pure ()
  | succ n ih =>
    exact (statusBlind_getBits 4).bind fun _ => statusBlind_eos.bind fun _ => (statusBlind_putByte _).bind fun _ => ih

theorem statusBlind_expandHex (up : HexCase) : StatusBlind (expandHex up) :=
  statusBlind_readCnt.bind fun _ => statusBlind_eos.bind fun _ => (StatusBlind.require _ _).bind fun _ =>
    statusBlind_hexLoop up _

theorem statusBlind_putGuidNibble (up : HexCase) (q x : Nat) : StatusBlind (putGuidNibble up q x) :=
  (statusBlind_putByte _).bind fun _ => .ite (statusBlind_putByte _) (.pure ())

theorem statusBlind_guidLoop (up : HexCase) (q n : Nat) : StatusBlind (guidLoop up q n) := by
  induction n generalizing q with
  | zero => exact .pure ()
  | succ n ih =>
    exact (statusBlind_getBits 4).bind fun _ => statusBlind_eos.bind fun _ =>
      (statusBlind_putGuidNibble up q _).bind fun _ => ih _

theorem statusBlind_templateLoop (ts : ByteStr) : StatusBlind (templateLoop ts) := by
  induction ts with
  | nil => exact .pure ()
  | cons t ts ih =>
    rw [templateLoop]
    cases letterWidth t with
    | none => exact (statusBlind_putByte t).bind fun _ => ih
    | some w =>
      exact (statusBlind_getBits w).bind fun _ => statusBlind_eos.bind fun _ =>
        (statusBlind_putByte _).bind fun _ => ih

theorem statusBlind_expandTemplate : StatusBlind expandTemplate := by
  refine (statusBlind_readStep 4).bind fun idx => statusBlind_readCnt.bind fun _ => statusBlind_eos.bind fun _ =>
    StatusBlind.look_bind fun p => ?_
  cases templateOf p idx with
  | none => exact .raise _
  | some t => exact (StatusBlind.require _ _).bind fun _ => statusBlind_templateLoop _

theorem statusBlind_expandFreq (i : Fin 6) : StatusBlind (expandFreq i) := by
  refine StatusBlind.look_bind fun p => ?_
  cases freqOf p i.val with
  | none => exact .raise _
  | some bs => exact statusBlind_putBytes bs

theorem statusBlind_binLoop (n : Nat) : StatusBlind (binLoop n) := by
  induction n with
  | zero => exact .pure ()
  | succ n ih =>
    exact (statusBlind_getBits 8).bind fun _ => statusBlind_eos.bind fun _ => (statusBlind_putByte _).bind fun _ => ih

theorem statusBlind_expandBin : StatusBlind expandBin :=
  statusBlind_readCnt.bind fun _ => statusBlind_eos.bind fun _ => (StatusBlind.require _ _).bind fun _ =>
    statusBlind_binLoop _

theorem statusBlind_expandEsc : StatusBlind expandEsc := by
  refine (statusBlind_readStep 5).bind fun k => statusBlind_eos.bind fun _ => ?_
  split
  · exact statusBlind_expandTemplate
  · exact statusBlind_expandHex _
  · exact statusBlind_guidLoop _ _ _
  · exact statusBlind_expandHex _
  · exact statusBlind_guidLoop _ _ _
  · exact statusBlind_expandBin

/-! ## The dispatch -/

theorem statusBlind_doSymbol (set : SymSet) (v : Fin 28) : StatusBlind (doSymbol set v) := by
  refine .readState_bind fun s => ?_
  cases s.preset.symbol set v with
  | chr c => exact statusBlind_putByte _
  | crlf => exact (statusBlind_putByte _).bind fun _ => statusBlind_putByte _
  | freq i => exact statusBlind_expandFreq i
  | rpt => exact statusBlind_expandRepeat
  | esc => exact statusBlind_expandEsc
  | term | switch | unassigned => exact .raise _

theorem statusBlind_shiftedLetter (v : Fin 28) : StatusBlind (shiftedLetter v) := by
  refine StatusBlind.look_bind fun p => ?_
  cases p.symbol .alpha v with
  | chr c => exact statusBlind_putByte _
  | _ => exact .raise _

theorem statusBlind_tailAlpha : StatusBlind tailAlpha :=
  .readState_bind fun _ => .ite (statusBlind_enterSet _) <| .ite (statusBlind_setUpper _) <|
    statusBlind_elementV.bind fun v => .ite
      (statusBlind_elementH.bind fun _ => (StatusBlind.require _ _).bind fun _ => statusBlind_setUpper _)
      (.ite .update (statusBlind_shiftedLetter v))

theorem statusBlind_deltaMagnitude (d : Int) : StatusBlind (deltaMagnitude d) :=
  StatusBlind.look_bind fun _ => (StatusBlind.require _ _).bind fun _ => (statusBlind_setPrevCp _).bind fun _ =>
    statusBlind_putBytes _

theorem statusBlind_deltaEffect {onSwitch : Cmd Unit} (hs : StatusBlind onSwitch) (d : DeltaHead) :
    StatusBlind (deltaEffect onSwitch d) := by
  cases d with
  | delta d => exact statusBlind_deltaMagnitude d
  | escape e => exact .ite hs (statusBlind_putByte _)

theorem statusBlind_transientDelta : StatusBlind transientDelta :=
  statusBlind_readDeltaHead.bind fun d => statusBlind_eos.bind fun _ => statusBlind_deltaEffect (.raise _) d

theorem statusBlind_doTail (h : SetId) : StatusBlind (doTail h) := by
  cases h with
  | alpha => exact statusBlind_tailAlpha
  | sym => exact statusBlind_elementV.bind fun v => statusBlind_doSymbol _ v
  | num => exact (statusBlind_enterSet _).bind fun _ => statusBlind_elementV.bind fun v => statusBlind_doSymbol _ v
  | dict => exact statusBlind_expandBackref
  | delta => exact StatusBlind.look_bind fun _ => .ite (.pure ()) statusBlind_transientDelta

theorem statusBlind_switchInDelta : StatusBlind switchInDelta :=
  statusBlind_elementH.bind fun h => statusBlind_doTail h

theorem statusBlind_restingDelta : StatusBlind restingDelta :=
  statusBlind_readDeltaHead.bind fun d => statusBlind_eos.bind fun _ =>
    statusBlind_deltaEffect statusBlind_switchInDelta d

theorem statusBlind_verticalToken (set : SymSet) : StatusBlind (verticalToken set) :=
  statusBlind_elementV.bind fun v => .ite
    (statusBlind_elementH.bind fun h => statusBlind_doTail h) (statusBlind_doSymbol set v)

theorem statusBlind_fetchAndRun : StatusBlind fetchAndRun := by
  refine .readState_bind fun s => (StatusBlind.require _ _).bind fun _ => ?_
  cases restingSymbols s.curSet with
  | none => exact statusBlind_restingDelta
  | some set => exact statusBlind_verticalToken set

/-! ## Turns -/

theorem StatusBlind.automaton {body : Cmd Unit} (hb : StatusBlind body) : StatusBlind (automaton body) := by
  intro s x
  unfold Machine.automaton
  dsimp only
  rw [hb s x]
  split
  · cases body s with
    | ok _ t => rfl
    | error e t => rfl
  · rfl

theorem stateAfter_restated {α : Type} (x : Status) (r : EStateM.Result Status State α) :
    stateAfter (restated x r) = { stateAfter r with status := x } := by
  cases r with
  | ok a t => rfl
  | error e t => rfl

/-- The turns of `DEC.RUN` keep a status written before them (R320). -/
theorem runLoop_restated (n : Nat) (s : State) (x : Status) :
    runLoop n { s with status := x } = { runLoop n s with status := x } := by
  induction n generalizing s with
  | zero => rfl
  | succ n ih =>
    rw [runLoop, runLoop, statusBlind_fetchAndRun.automaton s x, stateAfter_restated, ih]
    split <;> rfl

end Sys2Proof.Machine
end

section
/-!
`DEC.RUN`: a turn that starts before the end of IN reads a bit, one that starts at or past it halts, so that the bound of
R320 is enough turns; more of them change nothing.
-/

namespace Sys2Proof.Machine

/-! ## The first bit of a turn -/

/-- The rest of the read of a vertical code, its first bit read (R164). -/
theorem readV_firstBit (s : State) : ∃ c : Cmd (Fin 28), Reads c ∧ readV s = c (s.afterRead 1) := by
  have hrun : readV s = readCode (verticalCodes s.preset) [] 8 s := rfl
  rw [hrun, readCode, Cmd.bind_run, getBit_run]
  dsimp only
  cases findCode (verticalCodes s.preset) ([] ++ [paddedBit s s.roff]) with
  | some v => exact ⟨pure v, (Answers.pure v).reads, rfl⟩
  | none => exact ⟨_, reads_readCode _ _ 7, rfl⟩

/-- The rest of the read of a delta head, its first bit read (R206). -/
theorem readDeltaHead_firstBit (s : State) : ∃ c : Cmd DeltaHead, Answers c ∧ readDeltaHead s = c (s.afterRead 1) := by
  rw [readDeltaHead, readStep, readStepFrom, bind_assoc, Cmd.bind_run, getBit_run]
  refine ⟨_, Answers.bind (.ite (answers_readStepFrom 1 4) (.pure 0)) fun _ => .ite ?escape ?delta, rfl⟩
  case escape => exact (answers_readStep 4).bind fun _ => .pure _
  case delta => exact answers_getBit.bind fun _ => (answers_getBits _).bind fun _ => .pure _

section
variable {G : Guarantee} (hG : G.Decoder)
include hG

theorem Guarantee.Decoder.ends_verticalToken (set : SymSet) (s : State) :
    Ends (G.rel (s.afterRead 1)) (verticalToken set s) := by
  obtain ⟨c, hc, hfirst⟩ := readV_firstBit s
  have hrun (f : Fin 28 → Cmd Unit) : (readElement readV >>= f) s = (readElement c >>= f) (s.afterRead 1) := by
    rw [Cmd.bind_run, Cmd.bind_run, readElement_run, readElement_run, hfirst]
  rw [verticalToken, hrun]
  exact hG.keeps_readElement_bind hc
    (fun v => .ite (hG.keeps_readElement_bind reads_readH fun h => hG.keeps_doTail h) (hG.keeps_doSymbol set v)) _

theorem Guarantee.Decoder.ends_restingDelta (s : State) : Ends (G.rel (s.afterRead 1)) (restingDelta s) := by
  obtain ⟨c, hc, hfirst⟩ := readDeltaHead_firstBit s
  have hrun (f : DeltaHead → Cmd Unit) : (readDeltaHead >>= f) s = (c >>= f) (s.afterRead 1) := by
    rw [Cmd.bind_run, Cmd.bind_run, hfirst]
  rw [restingDelta, hrun]
  exact (KeepsRead.bind hc fun d => .eos_bind hG (hG.keeps_deltaEffect hG.keeps_switchInDelta d)).keeps _

/-- A turn that starts before the end of IN gives every guarantee of the automaton from one bit further on (R292). -/
theorem Guarantee.Decoder.ends_fetchAndRun {s : State} (h : s.roff < 8 * s.ilen) :
    Ends (G.rel (s.afterRead 1)) (fetchAndRun s) := by
  rw [fetchAndRun, Cmd.bind_run, readState_run]
  dsimp only
  rw [Cmd.bind_run, require_run, if_pos h]
  dsimp only
  cases restingSymbols s.curSet with
  | none => exact hG.ends_restingDelta s
  | some set => exact hG.ends_verticalToken set s

end

/-- `ROFF` does not move back, and `ILEN` is unchanged (R28). -/
def readsOnward : Guarantee where
  rel s _ t := t.ilen = s.ilen ∧ s.roff ≤ t.roff
  refl _ _ := ⟨rfl, Nat.le_refl _⟩
  trans h h' := ⟨h'.1.trans h.1, Nat.le_trans h.2 h'.2⟩
  finish _ h := h

/-- Bits read are the only writes of the automaton that move `ROFF` (R28, R124). -/
theorem readsOnward_decoder : readsOnward.Decoder where
  set _ _ _ _ := ⟨rfl, Nat.le_refl _⟩
  enterDelta _ _ _ := ⟨rfl, Nat.le_refl _⟩
  upperOff _ _ := ⟨rfl, Nat.le_refl _⟩
  upperOn _ _ _ := ⟨rfl, Nat.le_refl _⟩
  codepoint _ _ _ := ⟨rfl, Nat.le_refl _⟩
  result _ _ _ := ⟨rfl, Nat.le_refl _⟩
  write _ _ _ _ _ _ := ⟨rfl, Nat.le_refl _⟩
  read _ n _ _ := ⟨rfl, Nat.le_add_right _ n⟩

/-! ## Enough turns -/

/-- The state after one turn of the automaton, whatever it raised (R292). -/
abbrev State.turned (s : State) : State := stateAfter (automaton fetchAndRun s)

section
variable {s : State}

/-- A turn halts, or its bits leave `DEC.RUN` fewer turns (R320). -/
theorem State.turned_halts_or_reads (hrun : s.halt = .run) : s.turned.halt ≠ .run ∨ runBound s.turned < runBound s := by
  by_cases hend : 8 * s.ilen ≤ s.roff
  · left
    rw [State.turned, automaton_end hrun hend]
    exact nofun
  · right
    have hends := readsOnward_decoder.ends_fetchAndRun (s := s) (by omega)
    have hturned : readsOnward.rel (s.afterRead 1) .ok s.turned := by
      rw [State.turned, automaton, if_pos hrun]
      cases hr : fetchAndRun s with
      | ok _ t | error e t => rw [hr] at hends; exact hends
    obtain ⟨hilen, hroff⟩ := hturned
    rw [State.afterRead_ilen] at hilen
    rw [State.afterRead_roff] at hroff
    rw [runBound, runBound, hilen]
    omega

theorem runLoop_succ (hrun : s.halt = .run) (n : Nat) : runLoop (n + 1) s = runLoop n s.turned := by
  rw [runLoop, if_pos hrun]

/-- The bound of R320 is enough turns to come to a halt. -/
theorem runLoop_halts {n : Nat} (hn : runBound s ≤ n) : (runLoop n s).halt ≠ .run := by
  induction n generalizing s with
  | zero => exact absurd hn (Nat.not_succ_le_zero _)
  | succ n ih =>
    by_cases hrun : s.halt = .run
    · rw [runLoop_succ hrun]
      obtain hhalt | hless := State.turned_halts_or_reads hrun
      · rwa [runLoop_halted n hhalt]
      · exact ih (by omega)
    · rwa [runLoop_halted _ hrun]

theorem runLoop_add (m n : Nat) (s : State) : runLoop (m + n) s = runLoop n (runLoop m s) := by
  induction m generalizing s with
  | zero => rw [Nat.zero_add]; rfl
  | succ m ih =>
    by_cases hrun : s.halt = .run
    · rw [Nat.add_right_comm, runLoop_succ hrun, runLoop_succ hrun, ih]
    · rw [runLoop_halted _ hrun, runLoop_halted _ hrun, runLoop_halted _ hrun]

/-- More turns than the bound of R320 change nothing. -/
theorem runLoop_of_runBound_le {n : Nat} (hn : runBound s ≤ n) : runLoop n s = runLoop (runBound s) s := by
  rw [← Nat.add_sub_cancel' hn, runLoop_add, runLoop_halted _ (runLoop_halts (Nat.le_refl _))]

/-- All the turns that `DEC.RUN` takes (R320). -/
def State.runEnd (s : State) : State := runLoop (runBound s) s

theorem State.runEnd_halts (s : State) : s.runEnd.halt ≠ .run := runLoop_halts (Nat.le_refl _)

/-- The turns after the first come to the same end (R320). -/
theorem State.runEnd_turned (hrun : s.halt = .run) : s.turned.runEnd = s.runEnd := by
  have hend : s.runEnd = runLoop (8 * s.ilen - s.roff) s.turned := runLoop_succ hrun _
  rw [hend]
  obtain hhalt | hless := State.turned_halts_or_reads hrun
  · rw [State.runEnd, runLoop_halted _ hhalt, runLoop_halted _ hhalt]
  · exact (runLoop_of_runBound_le (Nat.le_of_lt_succ hless)).symm

/-- A status written before does not matter to the turns (R320). -/
theorem State.runEnd_restated (s : State) (x : Status) :
    State.runEnd { s with status := x } = { s.runEnd with status := x } :=
  runLoop_restated _ s x

/-! ## The commands -/

/-- `DEC.RUN` answers the end of its turns, with the bytes written and the halt's status (R320). -/
theorem execDecRun_eq (hs : s.canDecode) :
    exec .decRun s = .next { s.runEnd with r0 := BitVec.ofNat 32 s.runEnd.opos, status := s.runEnd.halt.status } :=
  decCommand_error (body := runToHalt) hs rfl

/-- `DEC.STEP` answers the state after one turn, with a status (R292, R340). -/
theorem execDecStep_turned {u : State} (hs : s.canDecode) (h : exec .decStep s = .next u) :
    ∃ x, u = { s.turned with status := x } := by
  have h : modeCommand .dec (automaton fetchAndRun) s = .next u := h
  rw [modeCommand_run hs.1 hs.2] at h
  cases h
  rw [State.turned]
  cases hr : automaton fetchAndRun s with
  | ok _ t => exact ⟨_, endCommand_ok hr⟩
  | error e t => exact ⟨_, endCommand_error hr⟩

theorem execDecStep_canDecode {u : State} (hs : s.canDecode) (h : exec .decStep s = .next u) : u.canDecode := by
  have hcall := reading_value_eq (f := fun s => (s.ready, s.mode)) (by simp [readingCommands]) h
  obtain ⟨hready, hmode⟩ := Prod.mk.inj hcall
  exact ⟨hready.trans hs.1, hmode.trans hs.2⟩

end

/-- Settles O47: enough turns halt, and a step is the first of them, the status it writes aside. -/
theorem decRunStepsToAHalt : Obligations.DecRunStepsToAHalt := by
  intro s hs
  refine ⟨_, execDecRun_eq hs, s.runEnd_halts, rfl, rfl, fun u hrun hstep => ?_⟩
  have hu := execDecStep_canDecode hs hstep
  obtain ⟨x, rfl⟩ := execDecStep_turned hs hstep
  rw [execDecRun_eq hu, State.runEnd_restated, State.runEnd_turned hrun]

end Sys2Proof.Machine
end

section
/-!
The refusals: what a command checks, it checks before it writes. A piece of pseudocode that has begun to write raises
neither RANGE nor REFUSED any more (`Accepts`); a command's pseudocode is a row of tests and reads with such a piece at
its end (`ChecksFirst`).
-/

namespace Sys2Proof.Machine

/-- The two statuses that leave all but `STATUS` unchanged (R346, R347). -/
abbrev Status.Rejects (e : Status) : Prop := e = .range ∨ e = .refused

/-- A piece of pseudocode that raises neither RANGE nor REFUSED. -/
def Accepts {α : Type} (c : Cmd α) : Prop := ∀ ⦃s t : State⦄ ⦃e : Status⦄, c s = .error e t → ¬ e.Rejects

/-- A piece of pseudocode that has written nothing where it raises RANGE or REFUSED. -/
def ChecksFirst {α : Type} (c : Cmd α) : Prop :=
  ∀ ⦃s t : State⦄ ⦃e : Status⦄, c s = .error e t → e.Rejects → t = s

/-! ## The pseudocode's own constructs -/

section
variable {α β : Type}

theorem Accepts.bind {x : Cmd α} {f : α → Cmd β} (hx : Accepts x) (hf : ∀ a, Accepts (f a)) :
    Accepts (x >>= f) := by
  intro s t e h
  rw [Cmd.bind_run] at h
  cases hr : x s with
  | ok a u => rw [hr] at h; exact hf a h
  | error e' u => rw [hr] at h; cases h; exact hx hr

theorem Accepts.ite {c : Prop} [Decidable c] {x y : Cmd α} (hx : Accepts x) (hy : Accepts y) :
    Accepts (if c then x else y) := by
  split <;> assumption

/-- What always answers raises nothing. -/
theorem Accepts.of_ok {c : Cmd α} (hc : ∀ s, ∃ a t, c s = .ok a t) : Accepts c := by
  intro s t e h
  obtain ⟨a, u, hok⟩ := hc s
  rw [hok] at h
  cases h

theorem Answers.accepts {c : Cmd α} (hc : Answers c) : Accepts c :=
  .of_ok fun s => (hc s).imp fun _ ⟨_, hn⟩ => ⟨_, hn⟩

theorem Accepts.pure (a : α) : Accepts (pure a) := (Answers.pure a).accepts

theorem Accepts.look (f : State → α) : Accepts (look f) := .of_ok fun _ => ⟨_, _, rfl⟩

theorem Accepts.readState : Accepts readState := .of_ok fun _ => ⟨_, _, rfl⟩

theorem Accepts.update (f : State → State) : Accepts (update f) := .of_ok fun _ => ⟨_, _, rfl⟩

theorem Accepts.raise {e : Status} (he : ¬ e.Rejects) : Accepts (raise e : Cmd α) := by
  intro s t e' h
  cases h
  exact he

theorem Accepts.require_bind {c : Prop} [Decidable c] {e : Status} {k : Unit → Cmd β} (he : ¬ e.Rejects)
    (hk : Accepts (k ())) : Accepts (require c e >>= k) :=
  .bind (.ite (.pure ()) (.raise he)) fun _ => hk

theorem Accepts.checksFirst {c : Cmd α} (hc : Accepts c) : ChecksFirst c := fun _ _ _ h he => absurd he (hc h)

theorem ChecksFirst.raise (e : Status) : ChecksFirst (raise e : Cmd α) := by
  intro s t e' h _
  cases h
  rfl

theorem ChecksFirst.ite {c : Prop} [Decidable c] {x y : Cmd α} (hx : ChecksFirst x) (hy : ChecksFirst y) :
    ChecksFirst (if c then x else y) := by
  split <;> assumption

theorem ChecksFirst.look_bind {f : State → α} {k : α → Cmd β} (hk : ∀ a, ChecksFirst (k a)) :
    ChecksFirst (look f >>= k) :=
  fun s _ _ h he => hk (f s) h he

theorem ChecksFirst.readState_bind {k : State → Cmd β} (hk : ∀ u, ChecksFirst (k u)) :
    ChecksFirst (Machine.readState >>= k) :=
  .look_bind (f := id) hk

theorem ChecksFirst.require_bind {c : Prop} [Decidable c] {e : Status} {k : Unit → Cmd β} (hk : ChecksFirst (k ())) :
    ChecksFirst (require c e >>= k) := by
  intro s t e' h he
  rw [Cmd.bind_run, require_run] at h
  by_cases hc : c
  · rw [if_pos hc] at h; exact hk h he
  · rw [if_neg hc] at h; cases h; rfl

end

/-! ## The emitters -/

theorem accepts_putBits (bits : BitStr) : Accepts (putBits bits) := by
  intro s t e h
  rw [putBits_run] at h
  split at h
  · cases h; decide
  · split at h
    · cases h; decide
    · cases h

theorem accepts_enterSet (h : SetId) : Accepts (enterSet h) := by
  cases h <;> exact .of_ok fun _ => ⟨_, _, rfl⟩

theorem accepts_emitSW (h : SetId) : Accepts (emitSW h) :=
  Accepts.readState.bind fun _ => (accepts_putBits _).bind fun _ => accepts_enterSet h

theorem accepts_emitSWUnless (cur : Resting) (h : SetId) : Accepts (emitSWUnless cur h) :=
  Accepts.readState.bind fun _ => .ite (.pure ()) (accepts_emitSW h)

theorem accepts_emitV (v : Fin 28) : Accepts (emitV v) := (Accepts.look _).bind fun _ => accepts_putBits _

theorem accepts_emitNUM (v : Fin 28) : Accepts (emitNUM v) :=
  (accepts_emitSWUnless _ _).bind fun _ => accepts_emitV v

theorem accepts_emitESC (k : Nat) : Accepts (emitESC k) :=
  (accepts_emitSW _).bind fun _ => (accepts_emitV _).bind fun _ => accepts_putBits _

theorem accepts_padOut : Accepts padOut := Accepts.readState.bind fun _ => .ite (.pure ()) (accepts_putBits _)

theorem accepts_marker : Accepts marker := by
  intro s t e h
  unfold marker at h
  split at h
  · exact accepts_putBits _ h
  · cases h

theorem accepts_emitDelta (cp : Nat) : Accepts (emitDelta cp) :=
  (Accepts.look _).bind fun _ => (accepts_putBits _).bind fun _ => .update _

theorem accepts_litUpper (c : Byte) : Accepts (litUpper c) :=
  (accepts_emitSWUnless _ _).bind fun _ => Accepts.readState.bind fun _ =>
    .ite (accepts_emitV _) ((accepts_putBits _).bind fun _ => accepts_emitV _)

theorem accepts_litSpace : Accepts litSpace :=
  Accepts.readState.bind fun _ => .ite (accepts_emitV _) <| .ite (accepts_putBits _) <|
    (accepts_emitSWUnless _ _).bind fun _ => accepts_emitV _

theorem accepts_litOther (c : Byte) : Accepts (litOther c) := by
  refine (Accepts.look _).bind fun p => ?_
  cases (p.classOf c).1 with
  | alpha =>
    exact (accepts_emitSWUnless _ _).bind fun _ => Accepts.readState.bind fun _ => .ite
      ((accepts_putBits _).bind fun _ => (Accepts.update _).bind fun _ => accepts_emitV _) (accepts_emitV _)
  | sym => exact (accepts_emitSW _).bind fun _ => accepts_emitV _
  | num => exact (accepts_emitSWUnless _ _).bind fun _ => accepts_emitV _

theorem accepts_literal (c : Byte) : Accepts (literal c) :=
  (Accepts.look _).bind fun _ => .ite (accepts_litUpper c) <| .ite accepts_litSpace <| .ite (accepts_putBits _) <|
    .ite (accepts_putBits _) (accepts_litOther c)

theorem accepts_setMatch (m : Match) : Accepts (setMatch m) :=
  .ite ((Accepts.update _).bind fun _ => (Accepts.update _).bind fun _ => (Accepts.update _).bind fun _ => .update _)
    ((Accepts.update _).bind fun _ => (Accepts.update _).bind fun _ => (Accepts.update _).bind fun _ => .update _)

/-! ## The readers and the byte writer -/

theorem accepts_eos : Accepts eos := by
  intro s t e h
  rw [eos_run] at h
  split at h
  · cases h; decide
  · cases h

theorem accepts_readCode {α : Type} (codes : List (α × BitStr)) (acc : BitStr) (n : Nat) :
    Accepts (readCode codes acc n) := by
  intro s t e h
  rw [readCode_error h]
  decide

theorem accepts_readH : Accepts readH := (Accepts.look _).bind fun _ => accepts_readCode _ _ _

theorem accepts_readV : Accepts readV := (Accepts.look _).bind fun _ => accepts_readCode _ _ _

/-- The read of a code by the automaton raises END_INPUT or what the reader raised (R293). -/
theorem accepts_readElement {α : Type} {read : Cmd α} (hr : Accepts read) : Accepts (readElement read) := by
  intro s t e h
  rw [readElement_run] at h
  cases hc : read s with
  | ok x u =>
    simp only [hc] at h
    split at h
    · cases h; decide
    · cases h
  | error e' u =>
    simp only [hc] at h
    split at h
    · cases h; decide
    · cases h; exact hr hc

theorem accepts_putByte (b : Byte) : Accepts (putByte b) := by
  intro s t e h
  rw [putByte_run] at h
  split at h
  · cases h; decide
  · split at h
    · cases h; decide
    · cases h

theorem accepts_putBytes (bs : ByteStr) : Accepts (putBytes bs) := by
  induction bs with
  | nil => exact .pure ()
  | cons b bs ih => exact (accepts_putByte b).bind fun _ => ih

/-! ## The expansions of the automaton -/

theorem accepts_copyBack (dist n : Nat) : Accepts (copyBack dist n) := by
  induction n with
  | zero => exact .pure ()
  | succ n ih => exact (Accepts.look _).bind fun _ => (accepts_putByte _).bind fun _ => ih

theorem accepts_copyRef (len x line : Nat) : Accepts (copyRef len x line) := by
  refine Accepts.readState.bind fun s => .ite (.require_bind (by decide) <| accepts_copyBack _ _) ?_
  cases s.lh[line - 1]? with
  | none => exact .raise (by decide)
  | some l => exact .require_bind (by decide) <| accepts_putBytes _

theorem accepts_expandBackref : Accepts expandBackref :=
  answers_readCnt.accepts.bind fun _ => answers_readCnt.accepts.bind fun _ => (Accepts.look _).bind fun _ => .ite
    (answers_readCnt.accepts.bind fun _ => accepts_eos.bind fun _ => accepts_copyRef _ _ _)
    (accepts_eos.bind fun _ => accepts_copyRef _ _ _)

theorem accepts_putRepeated (b : Byte) (n : Nat) : Accepts (putRepeated b n) := by
  induction n with
  | zero => exact .pure ()
  | succ n ih => exact (accepts_putByte _).bind fun _ => ih

theorem accepts_repeatLast (r : Nat) : Accepts (repeatLast r) :=
  Accepts.readState.bind fun _ => .require_bind (by decide) <| accepts_putRepeated _ _

theorem accepts_expandRepeat : Accepts expandRepeat :=
  answers_readCnt.accepts.bind fun _ => accepts_eos.bind fun _ => accepts_repeatLast _

theorem accepts_hexLoop (up : HexCase) (n : Nat) : Accepts (hexLoop up n) := by
  induction n with
  | zero => exact .pure ()
  | succ n ih =>
    exact (answers_getBits 4).accepts.bind fun _ => accepts_eos.bind fun _ => (accepts_putByte _).bind fun _ => ih

theorem accepts_expandHex (up : HexCase) : Accepts (expandHex up) :=
  answers_readCnt.accepts.bind fun _ => accepts_eos.bind fun _ => .require_bind (by decide) <|
    accepts_hexLoop _ _

theorem accepts_putGuidNibble (up : HexCase) (q x : Nat) : Accepts (putGuidNibble up q x) :=
  (accepts_putByte _).bind fun _ => .ite (accepts_putByte _) (.pure ())

theorem accepts_guidLoop (up : HexCase) (q n : Nat) : Accepts (guidLoop up q n) := by
  induction n generalizing q with
  | zero => exact .pure ()
  | succ n ih =>
    exact (answers_getBits 4).accepts.bind fun _ => accepts_eos.bind fun _ =>
      (accepts_putGuidNibble _ _ _).bind fun _ => ih _

theorem accepts_templateLoop (ts : ByteStr) : Accepts (templateLoop ts) := by
  induction ts with
  | nil => exact .pure ()
  | cons t ts ih =>
    rw [templateLoop]
    cases letterWidth t with
    | some w =>
      exact (answers_getBits w).accepts.bind fun _ => accepts_eos.bind fun _ => (accepts_putByte _).bind fun _ => ih
    | none => exact (accepts_putByte _).bind fun _ => ih

theorem accepts_expandTemplate : Accepts expandTemplate := by
  refine (answers_readStep 4).accepts.bind fun idx => answers_readCnt.accepts.bind fun _ => accepts_eos.bind fun _ =>
    (Accepts.look _).bind fun p => ?_
  cases templateOf p idx with
  | none => exact .raise (by decide)
  | some t => exact .require_bind (by decide) <| accepts_templateLoop _

theorem accepts_expandFreq (i : Fin 6) : Accepts (expandFreq i) := by
  refine (Accepts.look _).bind fun p => ?_
  cases freqOf p i.val with
  | none => exact .raise (by decide)
  | some bs => exact accepts_putBytes bs

theorem accepts_binLoop (n : Nat) : Accepts (binLoop n) := by
  induction n with
  | zero => exact .pure ()
  | succ n ih =>
    exact (answers_getBits 8).accepts.bind fun _ => accepts_eos.bind fun _ => (accepts_putByte _).bind fun _ => ih

theorem accepts_expandBin : Accepts expandBin :=
  answers_readCnt.accepts.bind fun _ => accepts_eos.bind fun _ => .require_bind (by decide) <|
    accepts_binLoop _

theorem accepts_expandEsc : Accepts expandEsc := by
  refine (answers_readStep 5).accepts.bind fun k => accepts_eos.bind fun _ => ?_
  split
  · exact accepts_expandTemplate
  · exact accepts_expandHex _
  · exact accepts_guidLoop _ _ _
  · exact accepts_expandHex _
  · exact accepts_guidLoop _ _ _
  · exact accepts_expandBin

theorem accepts_doSymbol (set : SymSet) (v : Fin 28) : Accepts (doSymbol set v) := by
  refine Accepts.readState.bind fun s => ?_
  cases s.preset.symbol set v with
  | chr c => exact accepts_putByte _
  | crlf => exact (accepts_putByte _).bind fun _ => accepts_putByte _
  | freq i => exact accepts_expandFreq i
  | rpt => exact accepts_expandRepeat
  | esc => exact accepts_expandEsc
  | term | switch | unassigned => exact .raise (by decide)

theorem accepts_shiftedLetter (v : Fin 28) : Accepts (shiftedLetter v) := by
  refine (Accepts.look _).bind fun p => ?_
  cases p.symbol .alpha v with
  | chr c => exact accepts_putByte _
  | _ => exact .raise (by decide)

theorem accepts_tailAlpha : Accepts tailAlpha :=
  Accepts.readState.bind fun _ => .ite (accepts_enterSet _) <| .ite (.update _) <|
    (accepts_readElement accepts_readV).bind fun v => .ite
      ((accepts_readElement accepts_readH).bind fun _ => .require_bind (by decide) <| .update _)
      (.ite (.update _) (accepts_shiftedLetter v))

theorem accepts_deltaMagnitude (d : Int) : Accepts (deltaMagnitude d) :=
  (Accepts.look _).bind fun _ => .require_bind (by decide) <| (Accepts.update _).bind fun _ =>
    accepts_putBytes _

theorem accepts_deltaEffect {onSwitch : Cmd Unit} (hs : Accepts onSwitch) (x : DeltaHead) :
    Accepts (deltaEffect onSwitch x) := by
  cases x with
  | delta d => exact accepts_deltaMagnitude d
  | escape e => exact .ite hs (accepts_putByte _)

theorem accepts_transientDelta : Accepts transientDelta :=
  answers_readDeltaHead.accepts.bind fun x => accepts_eos.bind fun _ => accepts_deltaEffect (.raise (by decide)) x

theorem accepts_doTail (h : SetId) : Accepts (doTail h) := by
  cases h with
  | alpha => exact accepts_tailAlpha
  | sym => exact (accepts_readElement accepts_readV).bind fun v => accepts_doSymbol _ v
  | num =>
    exact (accepts_enterSet _).bind fun _ => (accepts_readElement accepts_readV).bind fun v => accepts_doSymbol _ v
  | dict => exact accepts_expandBackref
  | delta => exact (Accepts.look _).bind fun _ => .ite (.pure ()) accepts_transientDelta

theorem accepts_switchInDelta : Accepts switchInDelta :=
  (accepts_readElement accepts_readH).bind fun h => accepts_doTail h

theorem accepts_restingDelta : Accepts restingDelta :=
  answers_readDeltaHead.accepts.bind fun x => accepts_eos.bind fun _ => accepts_deltaEffect accepts_switchInDelta x

theorem accepts_verticalToken (set : SymSet) : Accepts (verticalToken set) :=
  (accepts_readElement accepts_readV).bind fun v => .ite
    ((accepts_readElement accepts_readH).bind fun h => accepts_doTail h) (accepts_doSymbol set v)

theorem accepts_fetchAndRun : Accepts fetchAndRun := by
  refine Accepts.readState.bind fun s => .require_bind (by decide) <| ?_
  cases restingSymbols s.curSet with
  | none => exact accepts_restingDelta
  | some set => exact accepts_verticalToken set

/-! ## Turns of the automaton -/

/-- A halt is never RANGE or REFUSED (R35, R340). -/
theorem Halt.not_rejects_status (x : Halt) : ¬ x.status.Rejects := by
  cases x <;> decide

/-- A turn raises what its body raised, or the status of the halt it finds (R291). -/
theorem accepts_automaton {body : Cmd Unit} (hb : Accepts body) : Accepts (automaton body) := by
  intro s t e h
  unfold automaton at h
  by_cases hr : s.halt = .run
  · rw [if_pos hr] at h
    cases hs : body s with
    | ok _ u => simp only [hs] at h; cases h
    | error e' u => simp only [hs] at h; cases h; exact hb hs
  · rw [if_neg hr] at h
    cases h
    exact s.halt.not_rejects_status

theorem accepts_runToHalt : Accepts runToHalt := by
  intro s t e h
  cases h
  exact Halt.not_rejects_status _

/-! ## The wire forms -/

theorem accepts_consume (bits : BitStr) : Accepts (consume bits) := .of_ok fun _ => ⟨_, _, rfl⟩

theorem accepts_consumeForm (i : Instr) : Accepts (consumeForm i) := .of_ok fun _ => ⟨_, _, rfl⟩

theorem accepts_bareSymbol (v : Fin 28) : Accepts (bareSymbol v) := by
  refine (Accepts.look _).bind fun cur => ?_
  cases restingSymbols cur with
  | some set => exact accepts_doSymbol set v
  | none => exact .raise (by decide)

theorem accepts_inNum {body : Cmd Unit} (h : Accepts body) : Accepts (inNum body) :=
  (accepts_enterSet .num).bind fun _ => h

theorem accepts_deltaForm (d : DeltaTok) : Accepts (deltaForm d) :=
  (Accepts.look _).bind fun _ => accepts_deltaEffect (.ite accepts_switchInDelta (.raise (by decide))) _

theorem accepts_putNibbles (up : HexCase) (ns : List (BitVec 4)) : Accepts (putNibbles up ns) := by
  induction ns with
  | nil => exact .pure ()
  | cons x xs ih => exact (accepts_consume _).bind fun _ => (accepts_putByte _).bind fun _ => ih

theorem accepts_hexForm (up : HexCase) (ns : List (BitVec 4)) : Accepts (hexForm up ns) :=
  accepts_inNum (.require_bind (by decide) <| accepts_putNibbles up ns)

theorem accepts_putGuid (up : HexCase) (q : Nat) (ns : List (BitVec 4)) : Accepts (putGuid up q ns) := by
  induction ns generalizing q with
  | nil => exact .pure ()
  | cons x xs ih => exact (accepts_consume _).bind fun _ => (accepts_putGuidNibble _ _ _).bind fun _ => ih _

theorem accepts_putRaw (bs : ByteStr) : Accepts (putRaw bs) := by
  induction bs with
  | nil => exact .pure ()
  | cons b bs ih => exact (accepts_consume _).bind fun _ => (accepts_putByte _).bind fun _ => ih

theorem accepts_binForm (bs : ByteStr) : Accepts (binForm bs) :=
  accepts_inNum (.require_bind (by decide) <| accepts_putRaw bs)

theorem accepts_putTemplate (ts : ByteStr) (xs : List Nat) : Accepts (putTemplate ts xs) := by
  induction ts generalizing xs with
  | nil => exact .pure ()
  | cons t ts ih =>
    rw [putTemplate.eq_def]
    dsimp only
    cases letterWidth t with
    | none => exact (accepts_putByte _).bind fun _ => ih xs
    | some w =>
      cases xs with
      | nil => exact .raise (by decide)
      | cons x xs => exact (accepts_consume _).bind fun _ => (accepts_putByte _).bind fun _ => ih xs

theorem accepts_templateForm (idx : Fin 5) (rem : Nat) (digits : List Nat) :
    Accepts (templateForm idx rem digits) := by
  refine accepts_inNum ((Accepts.look _).bind fun p => ?_)
  cases templateOf p idx.val with
  | none => exact .raise (by decide)
  | some t => exact .require_bind (by decide) <| accepts_putTemplate _ _

theorem accepts_freqForm (i : Fin 6) : Accepts (freqForm i) := by
  refine (Accepts.look _).bind fun p => ?_
  obtain ⟨set, v⟩ := p.pairOf (.freq i)
  cases set with
  | sym => exact accepts_expandFreq i
  | alpha | num => exact accepts_inNum (accepts_expandFreq i)

end Sys2Proof.Machine
end

section
/-!
Whatever ends in RANGE or REFUSED has changed nothing but `STATUS`: one arm per constructor of `Instr`.
-/

namespace Sys2Proof.Machine

/-- A command that ends in RANGE or REFUSED has written `STATUS` only (R346, R347). -/
def RejectedUnchanged (s t : State) : Prop := t.status.Rejects → t = { s with status := t.status }

/-! ## Commands -/

theorem endCommand_rejected {body : Cmd Unit} (hb : ChecksFirst body) (s : State) :
    RejectedUnchanged s (endCommand body s) := by
  intro he
  cases hs : body s with
  | ok _ u => rw [endCommand_ok hs] at he; exact absurd he (show ¬ Status.ok.Rejects by decide)
  | error e u => rw [endCommand_error hs] at he ⊢; rw [hb hs he]

/-- A command of one mode: not ready, or in the other mode, it is REFUSED (R347). -/
theorem modeCommand_rejected {m : Mode} {body : Cmd Unit} {s t : State} (h : modeCommand m body s = .next t)
    (hb : ChecksFirst body) : RejectedUnchanged s t := by
  by_cases hs : s.ready = true ∧ s.mode = m
  · rw [modeCommand_run hs.1 hs.2] at h
    cases h
    exact endCommand_rejected hb s
  · rw [modeCommand_refused hs] at h
    cases h
    exact fun _ => rfl

/-- A command of both modes: not ready, it is REFUSED (R347). -/
theorem anyModeCommand_rejected {body : Cmd Unit} {s t : State} (h : anyModeCommand body s = .next t)
    (hb : ChecksFirst body) : RejectedUnchanged s t := by
  cases h
  refine endCommand_rejected (fun u v e hu he => ?_) s
  rw [Cmd.bind_run, checkReady_run] at hu
  by_cases hr : u.ready = true
  · rw [if_pos hr] at hu; exact hb hu he
  · rw [if_neg hr] at hu; cases hu; rfl

theorem readForm_rejected {i : Instr} {v : Nat} {s t : State} (h : readForm i v s = .next t) : RejectedUnchanged s t :=
  modeCommand_rejected h ((accepts_consumeForm i).bind fun _ => .update _).checksFirst

/-- A form out of its context is REFUSED; in its context it is a turn of the automaton (log entry 10). -/
theorem tokenForm_rejected {i : Instr} {body : Cmd Unit} {s t : State} (h : tokenForm i body s = .next t)
    (hb : Accepts body) : RejectedUnchanged s t :=
  modeCommand_rejected h <| .readState_bind fun _ => .require_bind
    (accepts_automaton ((accepts_consumeForm i).bind fun _ => hb)).checksFirst

/-! ## The pseudocode with tests of its own -/

/-- The Preset is checked before the call is started (R371). -/
theorem checksFirst_initCall : ChecksFirst initCall := by
  refine .readState_bind fun s => ?_
  cases modeOfNumber s.a0.toNat with
  | none => exact .raise _
  | some mode =>
    exact .require_bind <| .require_bind <| .require_bind ((Accepts.update _).bind fun _ => accepts_marker).checksFirst

theorem checksFirst_upperOnCommand : ChecksFirst upperOnCommand :=
  .look_bind fun _ => .require_bind <| Accepts.checksFirst <| (accepts_emitSWUnless _ _).bind fun _ =>
    (Accepts.look _).bind fun _ => (accepts_putBits _).bind fun _ => .update _

theorem checksFirst_upperOffCommand : ChecksFirst upperOffCommand :=
  .look_bind fun _ => .require_bind <| Accepts.checksFirst <| (accepts_emitSWUnless _ _).bind fun _ =>
    (Accepts.look _).bind fun _ => (accepts_putBits _).bind fun _ => .update _

theorem accepts_applyUnitDelta (d : Int) : Accepts (applyUnitDelta d) :=
  (Accepts.look _).bind fun _ => .require_bind (by decide) <| (Accepts.update _).bind fun _ =>
    (Accepts.update _).bind fun _ => (Accepts.update _).bind fun _ => .update _

section
variable {s t : State}

theorem execPcEnterd_rejected (h : execPcEnterd s = .next t) : RejectedUnchanged s t :=
  have hEnter (u : State) : Accepts (do
      putBits (shiftBits u.preset ++ u.preset.v spaceIndex)
      update (fun t => { t with curSet := .delta })) :=
    (accepts_putBits _).bind fun _ => .update _
  modeCommand_rejected h <| .look_bind fun _ => .require_bind <| Accepts.checksFirst <|
    (accepts_emitSWUnless _ _).bind fun _ => Accepts.readState.bind fun u =>
      .ite ((accepts_putBits _).bind fun _ => (Accepts.update _).bind fun _ => hEnter u) (hEnter u)

theorem execPcTerm_rejected (h : execPcTerm s = .next t) : RejectedUnchanged s t :=
  modeCommand_rejected h <| Accepts.checksFirst <| (Accepts.look _).bind fun _ => (accepts_emitNUM _).bind fun _ =>
    accepts_padOut.bind fun _ => (Accepts.look _).bind fun _ => .update _

theorem execUdlDec_rejected (h : execUdlDec s = .next t) : RejectedUnchanged s t := by
  refine modeCommand_rejected h <| Accepts.checksFirst <| answers_readDeltaHead.accepts.bind fun x => ?_
  cases x with
  | escape e => exact (Accepts.update _).bind fun _ => (Accepts.update _).bind fun _ => .update _
  | delta d => exact accepts_applyUnitDelta d

theorem execUdlEsc_rejected (h : execUdlEsc s = .next t) : RejectedUnchanged s t :=
  modeCommand_rejected h <| .look_bind fun _ => .look_bind fun _ => .look_bind fun _ => .require_bind <|
    .require_bind <| .ite (.require_bind (accepts_emitSW _).checksFirst) (accepts_putBits _).checksFirst

theorem execTkBackref_rejected (h : execTkBackref s = .next t) : RejectedUnchanged s t := by
  refine modeCommand_rejected h <| .look_bind fun len => .look_bind fun dist => .look_bind fun line =>
    .require_bind <| .look_bind fun x? => ?_
  cases x? with
  | none => exact .raise _
  | some x =>
    exact Accepts.checksFirst <| (accepts_emitSW _).bind fun _ => (accepts_putBits _).bind fun _ =>
      (accepts_putBits _).bind fun _ => (Accepts.look _).bind fun _ => .ite (accepts_putBits _) (.pure ())

theorem execTkHex_rejected (h : execTkHex s = .next t) : RejectedUnchanged s t := by
  refine modeCommand_rejected h <| .look_bind fun pos => .look_bind fun n => .look_bind fun up =>
    .readState_bind fun u => ?_
  cases caseOfNumber up with
  | none => exact .raise _
  | some c =>
    refine .require_bind ?_
    cases hexValues (runOf u pos n) c with
    | none => exact .raise _
    | some xs =>
      exact Accepts.checksFirst <| (accepts_emitESC _).bind fun _ => (accepts_putBits _).bind fun _ => accepts_putBits _

theorem execTkGuid_rejected (h : execTkGuid s = .next t) : RejectedUnchanged s t := by
  refine modeCommand_rejected h <| .look_bind fun pos => .look_bind fun up => .readState_bind fun u => ?_
  cases caseOfNumber up with
  | none => exact .raise _
  | some c =>
    refine .require_bind ?_
    cases guidValues c 0 (runOf u pos 36) with
    | none => exact .raise _
    | some xs => exact Accepts.checksFirst <| (accepts_emitESC _).bind fun _ => accepts_putBits _

theorem execTkTmpl_rejected (h : execTkTmpl s = .next t) : RejectedUnchanged s t := by
  refine modeCommand_rejected h <| .look_bind fun idx => .look_bind fun _ => .look_bind fun _ =>
    .readState_bind fun u => ?_
  cases templateOf u.preset idx with
  | none => exact .raise _
  | some tmpl =>
    exact .require_bind <| .require_bind <| Accepts.checksFirst <| (accepts_emitESC _).bind fun _ =>
      (accepts_putBits _).bind fun _ => (accepts_putBits _).bind fun _ => accepts_putBits _

theorem execTkFreq_rejected (h : execTkFreq s = .next t) : RejectedUnchanged s t := by
  refine modeCommand_rejected h <| .look_bind fun i => .look_bind fun p => .require_bind ?_
  obtain ⟨set, v⟩ := p.pairOf (freqSymbol i)
  cases set with
  | sym => exact Accepts.checksFirst <| (accepts_emitSW _).bind fun _ => accepts_emitV v
  | alpha | num => exact (accepts_emitNUM v).checksFirst

theorem execTkBin_rejected (h : execTkBin s = .next t) : RejectedUnchanged s t :=
  modeCommand_rejected h <| .look_bind fun _ => .look_bind fun _ => .readState_bind fun _ => .require_bind <|
    Accepts.checksFirst <| (accepts_emitESC _).bind fun _ => (accepts_putBits _).bind fun _ => accepts_putBits _

theorem execTkUni1_rejected (h : execTkUni1 s = .next t) : RejectedUnchanged s t :=
  modeCommand_rejected h <| .look_bind fun _ => .readState_bind fun _ => .require_bind <| .require_bind <|
    Accepts.checksFirst <| (accepts_putBits _).bind fun _ => accepts_emitDelta _

theorem execPad_rejected (h : execPad s = .next t) : RejectedUnchanged s t := by
  refine anyModeCommand_rejected h <| Accepts.checksFirst <| (Accepts.look _).bind fun m => ?_
  cases m with
  | enc => exact accepts_padOut
  | dec => exact accepts_automaton (.pure ())

/-! ## Every instruction -/

/-- Every instruction's tests come before its first write; the automaton, once it takes a turn, tests for halts only. -/
theorem exec_rejected {i : Instr} (h : exec i s = .next t) : RejectedUnchanged s t := by
  cases i with
  | init => cases h; exact endCommand_rejected checksFirst_initCall s
  | illegal n => cases h; exact endCommand_rejected (.raise _) s
  | bsAppend =>
    exact modeCommand_rejected h <| .look_bind fun _ => .look_bind fun _ => .require_bind <| Accepts.checksFirst <|
      (accepts_putBits _).bind fun _ => (Accepts.look _).bind fun _ => .update _
  | bsRdbit => exact modeCommand_rejected h (answers_getBit.accepts.bind fun _ => .update _).checksFirst
  | bsRd8 => exact modeCommand_rejected h ((Accepts.look _).bind fun _ => .update _).checksFirst
  | bsRdint =>
    exact modeCommand_rejected h <| .look_bind fun n => .require_bind <| Accepts.checksFirst <|
      (answers_getBits n).accepts.bind fun _ => .update _
  | outPutb =>
    exact modeCommand_rejected h <| .look_bind fun b => Accepts.checksFirst <| (accepts_putByte b).bind fun _ =>
      (Accepts.look _).bind fun _ => .update _
  | pcClass =>
    exact anyModeCommand_rejected h <| .look_bind fun _ => .look_bind fun _ => Accepts.checksFirst <|
      (Accepts.update _).bind fun _ => (Accepts.update _).bind fun _ => .update _
  | pcSw =>
    exact modeCommand_rejected h <| .look_bind fun _ => .look_bind fun _ => .require_bind (accepts_emitSW _).checksFirst
  | pcLit => exact modeCommand_rejected h <| .look_bind fun c => .require_bind (accepts_literal c).checksFirst
  | pcCtrl =>
    exact modeCommand_rejected h <| .look_bind fun _ => .require_bind <| .readState_bind fun _ =>
      .ite (accepts_putBits _).checksFirst ((accepts_emitSW _).bind fun _ => accepts_emitV _).checksFirst
  | pcUpper =>
    exact modeCommand_rejected h <| .look_bind fun _ =>
      .ite checksFirst_upperOnCommand <| .ite checksFirst_upperOffCommand (.raise _)
  | pcEnterd => exact execPcEnterd_rejected h
  | pcTerm => exact execPcTerm_rejected h
  | pcRdh => exact modeCommand_rejected h (accepts_readH.bind fun _ => .update _).checksFirst
  | pcRdv => exact modeCommand_rejected h (accepts_readV.bind fun _ => .update _).checksFirst
  | stepEnc =>
    exact modeCommand_rejected h <| .look_bind fun _ => .look_bind fun _ => .require_bind
      (accepts_putBits _).checksFirst
  | stepDec =>
    exact modeCommand_rejected h <| .look_bind fun c => .require_bind <| Accepts.checksFirst <|
      (answers_readStep c).accepts.bind fun _ => .update _
  | cntEnc => exact modeCommand_rejected h <| .look_bind fun _ => .require_bind (accepts_putBits _).checksFirst
  | cntDec => exact modeCommand_rejected h (answers_readCnt.accepts.bind fun _ => .update _).checksFirst
  | udlEnc =>
    exact modeCommand_rejected h <| .look_bind fun _ => .look_bind fun _ => .require_bind <| .require_bind
      (accepts_emitDelta _).checksFirst
  | udlDec => exact execUdlDec_rejected h
  | udlEsc => exact execUdlEsc_rejected h
  | tkBackref => exact execTkBackref_rejected h
  | tkRepeat =>
    exact modeCommand_rejected h <| .look_bind fun _ => .require_bind <| .look_bind fun _ => Accepts.checksFirst <|
      (accepts_emitNUM _).bind fun _ => accepts_putBits _
  | tkHex => exact execTkHex_rejected h
  | tkGuid => exact execTkGuid_rejected h
  | tkTmpl => exact execTkTmpl_rejected h
  | tkFreq => exact execTkFreq_rejected h
  | tkBin => exact execTkBin_rejected h
  | tkUni1 => exact execTkUni1_rejected h
  | smFind =>
    exact modeCommand_rejected h <| .look_bind fun _ => .readState_bind fun _ => .require_bind
      (accepts_setMatch _).checksFirst
  | decStep => exact modeCommand_rejected h (accepts_automaton accepts_fetchAndRun).checksFirst
  | decRun => exact modeCommand_rejected h accepts_runToHalt.checksFirst
  | magic => exact anyModeCommand_rejected h accepts_marker.checksFirst
  | pad => exact execPad_rejected h
  | dltTier0 | dltTier1 | dltTier2 | dltTier3 | dltTier4 | desc0 | desc1 | desc2 | desc3 | desc4 =>
    exact tokenForm_rejected h (accepts_deltaForm _)
  | symbol v => exact tokenForm_rejected h (accepts_bareSymbol v)
  | swResting x | swDelta x => exact tokenForm_rejected h (accepts_doTail x)
  | shift v => exact tokenForm_rejected h (accepts_shiftedLetter v)
  | upperOn | upperOff | enterd => exact tokenForm_rejected h (.update _)
  | toAlpha => exact tokenForm_rejected h (accepts_enterSet _)
  | symSymbol v => exact tokenForm_rejected h (accepts_doSymbol _ v)
  | numSymbol v => exact tokenForm_rejected h (accepts_inNum (accepts_doSymbol _ v))
  | backref0 | backref1 => exact tokenForm_rejected h (accepts_copyRef _ _ _)
  | uni1 d => exact tokenForm_rejected h (accepts_deltaEffect (.raise (by decide)) _)
  | rpt r => exact tokenForm_rejected h (accepts_inNum (accepts_repeatLast r))
  | term => exact tokenForm_rejected h (accepts_inNum (.raise (by decide)))
  | esc0Template idx rem digits => exact tokenForm_rejected h (accepts_templateForm idx rem digits)
  | esc1HexLower ns | esc3HexUpper ns => exact tokenForm_rejected h (accepts_hexForm _ ns)
  | esc2GuidLower ns | esc4GuidUpper ns => exact tokenForm_rejected h (accepts_inNum (accepts_putGuid _ 0 ns))
  | esc5Binary bs => exact tokenForm_rejected h (accepts_binForm bs)
  | freq0 | freq1 | freq2 | freq3 | freq4 | freq5 => exact tokenForm_rejected h (accepts_freqForm _)
  | ctrlLf | ctrlTab | ctrlCr => exact tokenForm_rejected h (accepts_putByte _)
  | ctrlCrlf => exact tokenForm_rejected h (accepts_putBytes _)
  | _ => exact readForm_rejected h

end

/-- Settles O16: an instruction that ends in RANGE or REFUSED failed a test that comes before its first write. -/
theorem rangeAndRefusedChangeOnlyStatus : Obligations.RangeAndRefusedChangeOnlyStatus :=
  fun _ _ _ h he => exec_rejected h he

end Sys2Proof.Machine
end

section
/-!
The bits that the parsers of the decoder consume: fields, codes, counts, delta tokens and payloads have one spelling
each (R94 to R105, R188, R206).
-/

namespace Sys2Proof.Machine

/-! ## A parser and the bits it consumes -/

/-- Where a parser answers, the bits that are gone stand in a relation to the answer. -/
def Consumes {α : Type} (p : Parse α) (R : α → BitStr → Prop) : Prop :=
  ∀ (bits : BitStr) (x : α) (rest : BitStr), p bits = .ok x rest → ∃ w, bits = w ++ rest ∧ R x w

section
variable {α β : Type} {p : Parse α} {Q : α → BitStr → Prop} {R : β → BitStr → Prop}

theorem Consumes.pure {y : β} (h : R y []) : Consumes (pure y) R := by
  rintro bits _ _ ⟨rfl, rfl⟩
  exact ⟨[], rfl, h⟩

theorem Consumes.reject (e : DecodeError) : Consumes (reject e) R := nofun

theorem Consumes.bind {f : α → Parse β} (hp : Consumes p Q)
    (hf : ∀ x w, Q x w → Consumes (f x) fun y u => R y (w ++ u)) : Consumes (p >>= f) R := by
  intro bits y rest h
  obtain ⟨x, mid, hx, hy⟩ := Parse.bind_ok h
  obtain ⟨w, rfl, hQ⟩ := hp bits x mid hx
  obtain ⟨u, rfl, hR⟩ := hf x w hQ mid y rest hy
  exact ⟨w ++ u, (List.append_assoc w u rest).symm, hR⟩

/-- A parser whose answer is renamed consumes the same bits. -/
theorem Consumes.rename {g : α → β} (hp : Consumes p Q) (h : ∀ x w, Q x w → R (g x) w) :
    Consumes (p >>= fun x => Pure.pure (g x)) R :=
  hp.bind fun x w hQ => .pure (by rw [List.append_nil]; exact h x w hQ)

theorem Consumes.mono {S : α → BitStr → Prop} (hp : Consumes p Q) (h : ∀ x w, Q x w → S x w) : Consumes p S :=
  fun bits x rest hx =>
    let ⟨w, hbits, hQ⟩ := hp bits x rest hx
    ⟨w, hbits, h x w hQ⟩

theorem Consumes.ite {c : Prop} [Decidable c] {q q' : Parse β} (h : c → Consumes q R) (h' : ¬ c → Consumes q' R) :
    Consumes (if c then q else q') R := by
  split
  · exact h ‹_›
  · exact h' ‹_›

end

/-! ## Fields, step codes and counts -/

theorem consumes_takeBit : Consumes takeBit fun b w => w = [b] := by
  intro bits b rest h
  cases bits with
  | nil => cases h
  | cons c bits => cases h; exact ⟨[b], rfl, rfl⟩

theorem consumes_takeFieldFrom (acc n : Nat) :
    Consumes (takeFieldFrom acc n) fun x w => w.length = n ∧ x = w.foldl (fun t b => 2 * t + b.toNat) acc := by
  induction n generalizing acc with
  | zero => exact .pure ⟨rfl, rfl⟩
  | succ n ih =>
    refine consumes_takeBit.bind ?_
    rintro b _ rfl
    exact (ih _).mono fun x w ⟨hw, hx⟩ => ⟨congrArg (· + 1) hw, hx⟩

/-- A field is read as the number it spells (R7). -/
theorem consumes_takeField (n : Nat) : Consumes (takeField n) fun x w => x < 2 ^ n ∧ w = field n x := by
  refine (consumes_takeFieldFrom 0 n).mono ?_
  rintro x w ⟨rfl, rfl⟩
  obtain ⟨v, hv, hw⟩ := exists_field_eq w
  have hvalue : w.foldl (fun t b => 2 * t + b.toNat) 0 = v := by
    rw [← hw, foldl_field, Nat.zero_mul, Nat.zero_add, Nat.mod_eq_of_lt hv]
  rw [hvalue]
  exact ⟨hv, hw.symm⟩

/-- A step code after `i` ones of it (R98). -/
theorem consumes_takeStepFrom (i n : Nat) :
    Consumes (takeStepFrom i n) fun x w => ∃ k, k ≤ n ∧ x = i + k ∧ w = stepBits k n := by
  induction n generalizing i with
  | zero => exact .pure ⟨0, Nat.le_refl 0, rfl, rfl⟩
  | succ n ih =>
    refine consumes_takeBit.bind ?_
    rintro b _ rfl
    cases b with
    | false => exact .pure ⟨0, Nat.zero_le _, rfl, rfl⟩
    | true =>
      refine (ih (i + 1)).mono ?_
      rintro _ _ ⟨k, hk, rfl, rfl⟩
      exact ⟨k + 1, Nat.succ_le_succ hk, by omega, (stepBits_succ k n).symm⟩

theorem consumes_takeStep (c : Nat) : Consumes (takeStep c) fun i w => i ≤ c ∧ w = stepBits i c := by
  refine (consumes_takeStepFrom 0 c).mono ?_
  rintro _ _ ⟨k, hk, rfl, rfl⟩
  rw [Nat.zero_add]
  exact ⟨hk, rfl⟩

theorem countBase_add_lt {i f : Nat} (hi : i ≤ 4) (hf : f < 2 ^ countWidth i) : countBase i + f < 67732 := by
  interval_cases i <;> simp only [countBase, countWidth] at * <;> omega

theorem cntBits_add {i f : Nat} (hi : i ≤ 4) (hf : f < 2 ^ countWidth i) :
    cntBits (countBase i + f) = countCode i f := by
  rw [cntBits, countTier_eq hi (Nat.le_add_right _ _) (Nat.add_lt_add_left hf _), Nat.add_sub_cancel_left]

/-- A count has one spelling (R99, R188). -/
theorem consumes_takeCount : Consumes takeCount fun v w => v < 67732 ∧ w = cntBits v := by
  refine (consumes_takeStep 4).bind ?_
  rintro i _ ⟨hi, rfl⟩
  refine (consumes_takeField _).rename ?_
  rintro f _ ⟨hf, rfl⟩
  exact ⟨countBase_add_lt hi hf, (cntBits_add hi hf).symm⟩

/-! ## Codes and delta tokens -/

theorem consumes_takeCode {α : Type} (codes : List (α × BitStr)) (e : DecodeError) (acc : BitStr) (n : Nat) :
    Consumes (takeCode codes e acc n) fun x w => (x, acc ++ w) ∈ codes := by
  induction n generalizing acc with
  | zero => exact .reject e
  | succ n ih =>
    refine consumes_takeBit.bind ?_
    rintro b _ rfl
    cases hfind : findCode codes (acc ++ [b]) with
    | some x => exact .pure (exists_of_findCode hfind)
    | none => exact (ih (acc ++ [b])).mono fun x w hx => by rwa [List.append_assoc] at hx

theorem consumes_takeH (p : Preset) : Consumes (takeH p) fun h w => w = p.h h :=
  (consumes_takeCode _ _ _ _).mono fun _ _ => mem_horizontalCodes.mp

theorem consumes_takeV (p : Preset) : Consumes (takeV p) fun v w => w = p.v v :=
  (consumes_takeCode _ _ _ _).mono fun _ _ => mem_verticalCodes.mp

theorem escapeTok_eq {e : Nat} (he : e < 5) : escapeTok e = .escape ⟨e, he⟩ := by
  interval_cases e <;> rfl

/-- A delta token has one spelling (R100, R206, R209). -/
theorem consumes_takeDelta : Consumes takeDelta fun d w => w = deltaTokBits d := by
  refine (consumes_takeStep 5).bind ?_
  rintro i _ ⟨hi, rfl⟩
  refine .ite (fun hesc => ?escape) fun hmag => ?magnitude
  case escape =>
    subst hesc
    refine (consumes_takeStep 4).rename ?_
    rintro e _ ⟨he, rfl⟩
    rw [escapeTok_eq (Nat.lt_succ_of_le he)]
    rfl
  case magnitude =>
    refine consumes_takeBit.bind ?_
    rintro neg _ rfl
    refine (consumes_takeField _).rename ?_
    rintro f _ ⟨hf, rfl⟩
    rw [deltaTokBits_tierTok neg (by omega) hf]
    rfl

/-! ## Payloads -/

theorem nibbleBits_cons (x : BitVec 4) (ns : List (BitVec 4)) :
    nibbleBits (x :: ns) = field 4 x.toNat ++ nibbleBits ns :=
  rfl

theorem byteBits_cons (b : Byte) (bs : ByteStr) : byteBits (b :: bs) = field 8 b.toNat ++ byteBits bs := rfl

theorem consumes_takeNibbles (n : Nat) : Consumes (takeNibbles n) fun ns w => ns.length = n ∧ w = nibbleBits ns := by
  induction n with
  | zero => exact .pure ⟨rfl, rfl⟩
  | succ n ih =>
    refine (consumes_takeField 4).bind ?_
    rintro x _ ⟨hx, rfl⟩
    refine ih.rename ?_
    rintro ns _ ⟨rfl, rfl⟩
    exact ⟨rfl, by rw [nibbleBits_cons, toNat_field hx]⟩

theorem consumes_takeBytes (n : Nat) : Consumes (takeBytes n) fun bs w => bs.length = n ∧ w = byteBits bs := by
  induction n with
  | zero => exact .pure ⟨rfl, rfl⟩
  | succ n ih =>
    refine (consumes_takeField 8).bind ?_
    rintro x _ ⟨hx, rfl⟩
    refine ih.rename ?_
    rintro bs _ ⟨rfl, rfl⟩
    exact ⟨rfl, by rw [byteBits_cons, toNat_field hx]⟩

theorem consumes_takeDigits (ws : List Nat) : Consumes (takeDigits ws) fun xs w => w = fieldsOf ws xs := by
  induction ws with
  | nil => exact .pure rfl
  | cons n ws ih =>
    refine (consumes_takeField n).bind ?_
    rintro x _ ⟨-, rfl⟩
    refine ih.rename ?_
    rintro xs _ rfl
    rfl

end Sys2Proof.Machine
end

section
/-!
The rows that have a symbol of their own (R156, R161, R253), and what a token's parser consumes: the encoding of the
token (R94 to R105).
-/

namespace Sys2Proof.Machine

/-! ## The rows of special symbols -/

/-- The rows of the line-control symbols of SYM, each with its symbol and the bytes it outputs (R156, R295). -/
inductive ControlRow : Instr → Symbol → ByteStr → Prop where
  | lf : ControlRow .ctrlLf (.chr 0x0A) [0x0A]
  | crlf : ControlRow .ctrlCrlf .crlf [0x0D, 0x0A]
  | tab : ControlRow .ctrlTab (.chr 0x09) [0x09]
  | cr : ControlRow .ctrlCr (.chr 0x0D) [0x0D]

theorem Preset.symbol_of_placesIn {p : Preset} {set : SymSet} {y : Symbol} {v : Fin 28} (h : p.placesIn set y = [v]) :
    p.symbol set v = y :=
  Preset.mem_placesIn.mp (by rw [h]; exact .head _)

theorem Preset.symbol_of_places {p : Preset} {set : SymSet} {y : Symbol} {v : Fin 28} (h : p.places y = [(set, v)]) :
    p.symbol set v = y :=
  Preset.mem_places.mp (by rw [h]; exact .head _)

section
variable {c : WireCtx} {p : Preset} {i : Instr} {v : Fin 28} {y : Symbol} {bs : ByteStr}

theorem specialRow_control (h : ControlRow i y bs) (hv : p.placesIn .sym y = [v]) : specialRow p .sym v = some i := by
  have hy := Preset.symbol_of_placesIn hv
  cases h <;> simp only [specialRow, hy, hv] <;> rfl

theorem specialRow_freq {set : SymSet} {k : Fin 6} (hset : set ≠ .alpha) (h : p.places (.freq k) = [(set, v)]) :
    specialRow p set v = some (freqRow k) := by
  have hy := Preset.symbol_of_places h
  cases set with
  | alpha => exact absurd rfl hset
  | sym => simp [specialRow, hy, h]
  | num => simp [specialRow, hy, h]

theorem specialRow_term (h : p.placesIn .num .term = [v]) : specialRow p .num v = some .term := by
  simp [specialRow, Preset.symbol_of_placesIn h, h]

/-- A row of its own in SYM is a line control's or a frequent substring's. -/
theorem specialRow_sym_cases (h : specialRow p .sym v = some i) :
    (∃ y bs, ControlRow i y bs ∧ p.placesIn .sym y = [v]) ∨
      ∃ k, i = freqRow k ∧ p.places (.freq k) = [(.sym, v)] := by
  cases hy : p.symbol .sym v with
  | chr x =>
    simp only [specialRow, hy] at h
    split_ifs at h with hv hlf htab hcr <;> cases h
    · exact .inl ⟨_, _, .lf, hlf ▸ hv⟩
    · exact .inl ⟨_, _, .tab, htab ▸ hv⟩
    · exact .inl ⟨_, _, .cr, hcr ▸ hv⟩
  | crlf =>
    simp only [specialRow, hy] at h
    split_ifs at h with hv
    cases h
    exact .inl ⟨_, _, .crlf, hv⟩
  | freq k =>
    simp only [specialRow, hy] at h
    split_ifs at h with hv
    cases h
    exact .inr ⟨k, rfl, hv⟩
  | _ => simp [specialRow, hy] at h

/-- A row of its own in NUM is the terminator's or a frequent substring's. -/
theorem specialRow_num_cases (h : specialRow p .num v = some i) :
    (i = .term ∧ p.placesIn .num .term = [v]) ∨ ∃ k, i = freqRow k ∧ p.places (.freq k) = [(.num, v)] := by
  cases hy : p.symbol .num v with
  | term =>
    simp only [specialRow, hy] at h
    split_ifs at h with hv
    cases h
    exact .inl ⟨rfl, hv⟩
  | freq k =>
    simp only [specialRow, hy] at h
    split_ifs at h with hv
    cases h
    exact .inr ⟨k, rfl, hv⟩
  | _ => simp [specialRow, hy] at h

/-! ## The bits of a row -/

theorem encodeHead_control (h : ControlRow i y bs) (c : WireCtx) :
    encodeHead c i = symBits c (c.preset.indexIn .sym y) := by
  cases h <;> rfl

theorem encodePayload_control (h : ControlRow i y bs) (c : WireCtx) : encodePayload c i = [] := by
  cases h <;> rfl

theorem encodeHead_freqRow (k : Fin 6) (c : WireCtx) : encodeHead c (freqRow k) = freqBits c k := by
  fin_cases k <;> rfl

/-- The bits of the row of a symbol are those of the symbol, to SYM or NUM (R233). -/
theorem encodeHead_sym_row (h : specialRow c.preset .sym v = some i) : encodeHead c i = symBits c v := by
  obtain ⟨y, bs, hrow, hv⟩ | ⟨k, rfl, hv⟩ := specialRow_sym_cases h
  · rw [encodeHead_control hrow, Preset.indexIn_of_placesIn hv]
  · rw [encodeHead_freqRow, freqBits, Preset.pairOf_of_places hv]

theorem encodeHead_num_row (h : specialRow c.preset .num v = some i) : encodeHead c i = numBits c v := by
  obtain ⟨rfl, hv⟩ | ⟨k, rfl, hv⟩ := specialRow_num_cases h
  · rw [encodeHead, Preset.indexIn_of_placesIn hv]
  · rw [encodeHead_freqRow, freqBits, Preset.pairOf_of_places hv]

theorem encodePayload_special {set : SymSet} (hset : set ≠ .alpha) (h : specialRow c.preset set v = some i) :
    encodePayload c i = [] := by
  cases set with
  | alpha => exact absurd rfl hset
  | sym =>
    obtain ⟨y, bs, hrow, -⟩ | ⟨k, rfl, -⟩ := specialRow_sym_cases h
    · exact encodePayload_control hrow c
    · exact encodePayload_freqRow k c
  | num =>
    obtain ⟨rfl, -⟩ | ⟨k, rfl, -⟩ := specialRow_num_cases h
    · rfl
    · exact encodePayload_freqRow k c

theorem encode_of_payload_nil (h : encodePayload c i = []) : encode c i = encodeHead c i := by
  rw [encode, h, List.append_nil]

theorem encode_special_sym (h : specialRow c.preset .sym v = some i) : encode c i = symBits c v := by
  rw [encode_of_payload_nil (encodePayload_special (by decide) h), encodeHead_sym_row h]

theorem encode_special_num (h : specialRow c.preset .num v = some i) : encode c i = numBits c v := by
  rw [encode_of_payload_nil (encodePayload_special (by decide) h), encodeHead_num_row h]

theorem encode_deltaRow (d : DeltaTok) (c : WireCtx) : encode c (deltaRow d) = deltaTokBits d := by
  have hpayload : encodePayload c (deltaRow d) = [] := by
    cases d with
    | escape e => fin_cases e <;> rfl
    | _ => rfl
  rw [encode_of_payload_nil hpayload, encodeHead_deltaRow]

theorem isRepeat_iff : isRepeat p v = true ↔ p.placesIn .num .rpt = [v] := decide_eq_true_iff

theorem isEscape_iff : isEscape p v = true ↔ v = switchIndex ∧ p.symbol .num v = .esc := decide_eq_true_iff

theorem switchBits_of_ne_delta {set : Resting} (h : set ≠ .delta) (k : SetId) :
    switchBits p set k = p.v switchIndex ++ p.h k := by
  cases set with
  | delta => exact absurd rfl h
  | _ => rfl

theorem numBits_of_num (h : c.set = .num) (v : Fin 28) : numBits c v = c.preset.v v := by
  rw [numBits, h]

theorem numBits_of_ne_num (h : c.set ≠ .num) (v : Fin 28) :
    numBits c v = switchBits c.preset c.set .num ++ c.preset.v v := by
  cases hset : c.set with
  | num => exact absurd hset h
  | _ => rw [numBits, hset]

end

/-! ## What follows a switch -/

section
variable {c : WireCtx}

/-- A counted run behind its sub-code consumes its count and its payload (R101). -/
theorem consumes_counted {α : Type} {k : Nat} {f : Nat → Parse (List α)} {form : List α → Instr}
    {bits : List α → BitStr} (hf : ∀ n, Consumes (f n) fun xs w => xs.length = n ∧ w = bits xs)
    (hform : ∀ xs, encode c (form xs) = (escBits c k ++ cntBits xs.length) ++ bits xs) :
    Consumes (do let n ← takeCount; let xs ← f n; pure (form xs) : Parse Instr) fun i w =>
      encode c i = escBits c k ++ w := by
  refine consumes_takeCount.bind ?_
  rintro n _ ⟨-, rfl⟩
  refine (hf n).rename ?_
  rintro xs _ ⟨rfl, rfl⟩
  rw [hform, List.append_assoc]

theorem consumes_guid {k : Nat} {form : List (BitVec 4) → Instr}
    (hform : ∀ ns, encode c (form ns) = escBits c k ++ nibbleBits ns) :
    Consumes (do let ns ← takeNibbles 32; pure (form ns) : Parse Instr) fun i w => encode c i = escBits c k ++ w := by
  refine (consumes_takeNibbles 32).rename ?_
  rintro ns _ ⟨-, rfl⟩
  exact hform ns

theorem consumes_template : Consumes (do
    let idx ← takeStep 4
    let rem ← takeCount
    let digits ← takeDigits (sentWidths c.preset idx rem)
    pure (.esc0Template (Fin.ofNat 5 idx) rem digits)) fun i w => encode c i = escBits c 0 ++ w := by
  refine (consumes_takeStep 4).bind ?_
  rintro idx _ ⟨hidx, rfl⟩
  refine consumes_takeCount.bind ?_
  rintro rem _ ⟨-, rfl⟩
  refine (consumes_takeDigits _).rename ?_
  rintro xs _ rfl
  have hval : (Fin.ofNat 5 idx).val = idx := Nat.mod_eq_of_lt (Nat.lt_succ_of_le hidx)
  show escBits c 0 ++ stepBits (Fin.ofNat 5 idx).val 4 ++ cntBits rem ++
    fieldsOf (sentWidths c.preset (Fin.ofNat 5 idx).val rem) xs = _
  rw [hval]
  simp only [List.append_assoc]

/-- A token behind ESC consumes its sub-code, its counts and its payload (R101, R232). -/
theorem consumes_takeEsc : Consumes (takeEsc c.preset) fun i w =>
    encode c i = switchBits c.preset c.set .num ++ c.preset.v switchIndex ++ w := by
  refine (consumes_takeStep 5).bind ?_
  rintro k _ ⟨hk, rfl⟩
  have hesc (w : BitStr) :
      switchBits c.preset c.set .num ++ c.preset.v switchIndex ++ (stepBits k 5 ++ w) = escBits c k ++ w :=
    (List.append_assoc _ _ _).symm
  simp only [hesc]
  interval_cases k
  · exact consumes_template
  · exact consumes_counted consumes_takeNibbles fun _ => rfl
  · exact consumes_guid fun _ => rfl
  · exact consumes_counted consumes_takeNibbles fun _ => rfl
  · exact consumes_guid fun _ => rfl
  · exact consumes_counted consumes_takeBytes fun _ => rfl

/-- A symbol of NUM as its row: what is behind RPT is its count (R240). -/
theorem consumes_takeNumRow {v : Fin 28} {general : Instr} (h : encode c general = numBits c v) :
    Consumes (takeNumRow c.preset v general) fun i w => encode c i = numBits c v ++ w := by
  refine .ite (fun hrpt => ?_) fun _ => ?_
  · refine consumes_takeCount.rename ?_
    rintro n _ ⟨-, rfl⟩
    rw [encode_of_payload_nil rfl, encodeHead, Preset.indexIn_of_placesIn (isRepeat_iff.mp hrpt), Nat.add_sub_cancel]
  · cases hrow : specialRow c.preset .num v with
    | some i => exact .pure (by rw [encode_special_num hrow, List.append_nil])
    | none => exact .pure (by rw [h, List.append_nil])

theorem consumes_takeTailAlpha :
    Consumes (takeTailAlpha c) fun i w => encode c i = switchBits c.preset c.set .alpha ++ w := by
  refine .ite (fun _ => .pure rfl) fun hset => ?_
  have hswitch : switchBits c.preset c.set .alpha = shiftBits c.preset := by rw [not_not.mp hset]; rfl
  rw [hswitch]
  refine .ite (fun _ => .pure rfl) fun _ => ?_
  refine (consumes_takeV _).bind ?_
  rintro v _ rfl
  refine .ite (fun hv => ?_) fun _ => .ite (fun hv => .pure ?_) fun _ => .pure ?_
  · subst hv
    refine (consumes_takeH _).bind ?_
    rintro k _ rfl
    refine .ite (fun hk => .pure ?_) fun _ => .reject _
    subst hk
    rw [encode_of_payload_nil rfl, List.append_nil]
    rfl
  · rw [encode_of_payload_nil rfl, List.append_nil, hv]
    rfl
  · rw [encode_of_payload_nil rfl, List.append_nil]
    rfl

theorem consumes_takeTail (k : SetId) :
    Consumes (takeTail c k) fun i w => encode c i = switchBits c.preset c.set k ++ w := by
  cases k with
  | alpha => exact consumes_takeTailAlpha
  | sym =>
    refine (consumes_takeV _).bind ?_
    rintro v _ rfl
    cases hrow : specialRow c.preset .sym v with
    | some i => exact .pure (by rw [encode_special_sym hrow, List.append_nil]; rfl)
    | none => exact .pure ((encode_of_payload_nil rfl).trans (by rw [List.append_nil]; rfl))
  | num =>
    refine (consumes_takeV _).bind ?_
    rintro v _ rfl
    refine .ite (fun hesc => ?_) fun _ => .ite (fun _ => .pure ?_) fun hset => ?_
    · obtain ⟨rfl, -⟩ := isEscape_iff.mp hesc
      exact consumes_takeEsc.mono fun i w hi => hi.trans (List.append_assoc _ _ _)
    · exact (encode_of_payload_nil rfl).trans (by rw [List.append_nil]; rfl)
    · have hbits := numBits_of_ne_num hset v
      have hgeneral : encode c (.numSymbol v) = numBits c v := (encode_of_payload_nil rfl).trans hbits.symm
      exact (consumes_takeNumRow hgeneral).mono fun i w hi => by rw [hi, hbits, List.append_assoc]
  | dict =>
    refine consumes_takeCount.bind ?_
    rintro l _ ⟨-, rfl⟩
    refine consumes_takeCount.bind ?_
    rintro x _ ⟨-, rfl⟩
    refine .ite (fun _ => ?_) fun _ => .pure ?_
    · refine consumes_takeCount.rename ?_
      rintro n _ ⟨-, rfl⟩
      rw [encode_of_payload_nil rfl, encodeHead, Nat.add_sub_cancel]
      simp only [List.append_assoc]
    · rw [encode_of_payload_nil rfl, encodeHead, Nat.add_sub_cancel, Nat.add_sub_cancel]
      simp only [List.append_assoc, List.append_nil]
  | delta =>
    refine .ite (fun hset => .pure ?_) fun hset => consumes_takeDelta.bind ?_
    · rw [encode_of_payload_nil rfl, encodeHead, hset, List.append_nil]; rfl
    · rintro d _ rfl
      refine .ite (fun _ => .reject _) fun _ => .pure ?_
      rw [encode_of_payload_nil rfl, encodeHead, switchBits_of_ne_delta hset, List.append_nil]

/-! ## Tokens and switches -/

theorem consumes_takeBare (v : Fin 28) : Consumes (takeBare c v) fun i w => encode c i = c.preset.v v ++ w := by
  refine .ite (fun hset => ?_) fun _ => .pure rfl
  rw [← numBits_of_num hset]
  exact consumes_takeNumRow ((encode_of_payload_nil rfl).trans (numBits_of_num hset v).symm)

/-- A token consumes its encoding (R94). -/
theorem consumes_takeToken : Consumes (takeToken c) fun i w => encode c i = w := by
  refine .ite (fun hset => consumes_takeDelta.bind ?_) fun hset => (consumes_takeV _).bind ?_
  · rintro d _ rfl
    refine .ite (fun hd => (consumes_takeH _).bind ?_) fun _ => .pure ?_
    · rintro k _ rfl
      refine (consumes_takeTail k).mono fun i w hi => ?_
      rw [hi, hd, hset, ← List.append_assoc]
      rfl
    · rw [encode_deltaRow, List.append_nil]
  · rintro v _ rfl
    refine .ite (fun hv => (consumes_takeH _).bind ?_) fun _ => consumes_takeBare v
    rintro k _ rfl
    refine (consumes_takeTail k).mono fun i w hi => ?_
    rw [hi, hv, switchBits_of_ne_delta hset, List.append_assoc]

theorem consumes_takeSwitch : Consumes (takeSwitch c) fun i w => encode c i = w := by
  refine .ite (fun _ => consumes_takeDelta.bind ?_) fun _ => (consumes_takeV _).bind ?_
  · rintro d _ rfl
    refine .ite (fun hd => (consumes_takeH _).rename ?_) fun _ => .reject _
    rintro k _ rfl
    rw [encode_of_payload_nil rfl, encodeHead, hd]
    rfl
  · rintro v _ rfl
    refine .ite (fun hv => (consumes_takeH _).rename ?_) fun _ => .reject _
    rintro k _ rfl
    rw [encode_of_payload_nil rfl, encodeHead, hv]

end

/-! ## Codes and commands -/

/-- A command is its number (R90). -/
theorem encode_of_commandNumber {i : Instr} {n : BitVec 8} (h : commandNumber i = some n) (c : WireCtx) :
    encode c i = field 8 n.toNat := by
  cases i <;> cases h <;> rfl

theorem commandNumber_decodeCommand : ∀ n : BitVec 8, commandNumber (decodeCommand n) = some n := by decide

theorem consumes_takeCommand (c : WireCtx) : Consumes (take .command c) fun i w => encode c i = w := by
  refine (consumes_takeField 8).rename ?_
  rintro n _ ⟨hn, rfl⟩
  rw [encode_of_commandNumber (commandNumber_decodeCommand _), toNat_field hn]

theorem encode_horizontalRow (c : WireCtx) (h : SetId) : encode c (horizontalRow h) = c.preset.h h :=
  (encode_of_payload_nil (by cases h <;> rfl)).trans (encodeHead_horizontalRow c h)

theorem encode_verticalRow (c : WireCtx) (v : Fin 28) : encode c (verticalRow v) = c.preset.v v :=
  (encode_of_payload_nil (by fin_cases v <;> rfl)).trans (encodeHead_verticalRow c v)

theorem encode_step4Row {i : Nat} (h : i ≤ 4) (c : WireCtx) : encode c (step4Row i) = stepBits i 4 :=
  (encode_of_payload_nil (by interval_cases i <;> rfl)).trans (encodeHead_step4Row h c)

theorem encode_step5Row {i : Nat} (h : i ≤ 5) (c : WireCtx) : encode c (step5Row i) = stepBits i 5 :=
  (encode_of_payload_nil (by interval_cases i <;> rfl)).trans (encodeHead_step5Row h c)

theorem encode_countRow {i f : Nat} (hi : i ≤ 4) (hf : f < 2 ^ countWidth i) (c : WireCtx) :
    encode c (countRow i f) = countCode i f :=
  (encode_of_payload_nil (by interval_cases i <;> rfl)).trans (encodeHead_countRow hi hf c)

theorem consumes_takeCountRow (c : WireCtx) : Consumes (take .count c) fun i w => encode c i = w := by
  refine (consumes_takeStep 4).bind ?_
  rintro i _ ⟨hi, rfl⟩
  refine (consumes_takeField _).rename ?_
  rintro f _ ⟨hf, rfl⟩
  exact encode_countRow hi hf c

/-- Every reader but the marker's and the padding's, whose bits are skipped unread, consumes the encoding of what it
answers. -/
theorem consumes_take {r : Reader} (hm : r ≠ .marker) (hp : r ≠ .padding) (c : WireCtx) :
    Consumes (take r c) fun i w => encode c i = w := by
  cases r with
  | marker => exact absurd rfl hm
  | padding => exact absurd rfl hp
  | command => exact consumes_takeCommand c
  | horizontal => exact (consumes_takeH _).rename fun h _ hw => (encode_horizontalRow c h).trans hw.symm
  | vertical => exact (consumes_takeV _).rename fun v _ hw => (encode_verticalRow c v).trans hw.symm
  | step4 => exact (consumes_takeStep 4).rename fun _ _ ⟨hi, hw⟩ => (encode_step4Row hi c).trans hw.symm
  | step5 => exact (consumes_takeStep 5).rename fun _ _ ⟨hi, hw⟩ => (encode_step5Row hi c).trans hw.symm
  | count => exact consumes_takeCountRow c
  | delta => exact consumes_takeDelta.rename fun d _ hw => (encode_deltaRow d c).trans hw.symm
  | switch => exact consumes_takeSwitch
  | token => exact consumes_takeToken

theorem decode_eq_ok_iff {r : Reader} {c : WireCtx} {bits rest : BitStr} {i : Instr} :
    decode r c bits = .ok (i, rest) ↔ take r c bits = .ok i rest := by
  rw [decode]
  cases take r c bits with
  | ok j mid => simp
  | error e mid => simp

/-- Settles O6: each reader consumes the encoding of what it answers, piece by piece of its grammar. -/
theorem decodedFormsEncodeToTheBitsRead : Obligations.DecodedFormsEncodeToTheBitsRead := by
  intro r c bits i rest hm hp h
  obtain ⟨w, hbits, hw⟩ := consumes_take hm hp c bits i rest (decode_eq_ok_iff.mp h)
  rw [hw, ← hbits]

end Sys2Proof.Machine
end

section
/-!
What the parsers of the decoder answer for an encoding: what was encoded, with the bits behind it left (R94 to R105).
-/

namespace Sys2Proof.Machine

/-! ## A parser and what it reads from given bits -/

/-- A parser reads a value from some bits, whatever stands behind them. -/
def Yields {α : Type} (p : Parse α) (w : BitStr) (x : α) : Prop := ∀ rest : BitStr, p (w ++ rest) = .ok x rest

section
variable {α β : Type} {p : Parse α} {f : α → Parse β} {w u : BitStr} {x : α} {y : β}

theorem Yields.pure (x : α) : Yields (pure x) [] x := fun _ => rfl

theorem Parse.bind_run (p : Parse α) (f : α → Parse β) (bits : BitStr) :
    (p >>= f) bits = match p bits with
      | .ok x rest => f x rest
      | .error e rest => .error e rest := by
  simp only [Bind.bind, EStateM.bind]
  cases p bits <;> rfl

theorem Yields.bind (hp : Yields p w x) (hf : Yields (f x) u y) : Yields (p >>= f) (w ++ u) y := by
  intro rest
  rw [List.append_assoc, Parse.bind_run, hp]
  exact hf rest

/-- After its last read a parser answers. -/
theorem Yields.last (hp : Yields p w x) (hy : f x = Pure.pure y) : Yields (p >>= f) w y :=
  List.append_nil w ▸ hp.bind (hy ▸ .pure y)

theorem Yields.rename (hp : Yields p w x) {g : α → β} (hy : g x = y) : Yields (p >>= fun a => Pure.pure (g a)) w y :=
  hp.last (congrArg _ hy)

theorem Yields.ite_true {c : Prop} [Decidable c] {q q' : Parse β} (hc : c) (h : Yields q w y) :
    Yields (if c then q else q') w y := by
  rwa [if_pos hc]

theorem Yields.ite_false {c : Prop} [Decidable c] {q q' : Parse β} (hc : ¬ c) (h : Yields q' w y) :
    Yields (if c then q else q') w y := by
  rwa [if_neg hc]

end

/-! ## Fields, step codes and counts -/

theorem yields_takeBit (b : Bool) : Yields takeBit [b] b := fun _ => rfl

theorem yields_takeFieldFrom (acc : Nat) (w : BitStr) :
    Yields (takeFieldFrom acc w.length) w (w.foldl (fun t b => 2 * t + b.toNat) acc) := by
  induction w generalizing acc with
  | nil => exact .pure acc
  | cons b w ih => exact (yields_takeBit b).bind (ih _)

theorem yields_takeField {n v : Nat} (hv : v < 2 ^ n) : Yields (takeField n) (field n v) v := by
  have h := yields_takeFieldFrom 0 (field n v)
  rwa [field_length, foldl_field, Nat.zero_mul, Nat.zero_add, Nat.mod_eq_of_lt hv] at h

theorem yields_takeStepFrom {k n : Nat} (hk : k ≤ n) (i : Nat) : Yields (takeStepFrom i n) (stepBits k n) (i + k) := by
  induction n generalizing k i with
  | zero =>
    obtain rfl : k = 0 := by omega
    exact .pure i
  | succ n ih =>
    cases k with
    | zero => exact (yields_takeBit false).bind (.pure i)
    | succ k =>
      rw [stepBits_succ, ← Nat.add_assoc, Nat.add_right_comm]
      exact (yields_takeBit true).bind (ih (Nat.le_of_succ_le_succ hk) (i + 1))

theorem yields_takeStep {i c : Nat} (hi : i ≤ c) : Yields (takeStep c) (stepBits i c) i := by
  have h := yields_takeStepFrom hi 0
  rwa [Nat.zero_add] at h

theorem yields_takeCount {v : Nat} (hv : v < 67732) : Yields takeCount (cntBits v) v := by
  obtain ⟨htier, hbase, hfield⟩ := countTier_bounds hv
  exact (yields_takeStep htier).bind ((yields_takeField hfield).rename (Nat.add_sub_cancel' hbase))

/-! ## Codes and delta tokens -/

/-- The loop of a code ends at the first code that the bits spell (R163, R164). -/
theorem yields_takeCode {α : Type} {codes : List (α × BitStr)} {e : DecodeError} {acc w : BitStr} {n : Nat} {x : α}
    (hfree : PrefixFree codes) (hx : (x, acc ++ w) ∈ codes) (hne : w ≠ []) (hn : w.length ≤ n) :
    Yields (takeCode codes e acc n) w x := by
  induction w generalizing acc n with
  | nil => exact absurd rfl hne
  | cons b w ih =>
    obtain ⟨n, rfl⟩ : ∃ m, n = m + 1 := ⟨n - 1, by rw [List.length_cons] at hn; omega⟩
    refine (yields_takeBit b).bind ?_
    rw [← List.singleton_append, ← List.append_assoc] at hx
    cases w with
    | nil =>
      rw [List.append_nil] at hx
      rw [findCode_eq_some hfree hx]
      exact .pure x
    | cons d w =>
      rw [findCode_proper_prefix hfree hx (List.prefix_append _ _) (by simp)]
      exact ih hx (by simp) (Nat.le_of_succ_le_succ hn)

section
variable {p : Preset}

theorem yields_takeH (hw : p.wf = true) (h : SetId) : Yields (takeH p) (p.h h) h := by
  obtain ⟨hlo, hhi⟩ := Preset.wf_h_length hw h
  exact yields_takeCode (horizontalCodes_prefixFree hw) (mem_horizontalCodes.mpr rfl) (List.length_pos_iff.mp hlo) hhi

theorem yields_takeV (hw : p.wf = true) (v : Fin 28) : Yields (takeV p) (p.v v) v :=
  yields_takeCode (verticalCodes_prefixFree hw) (mem_verticalCodes.mpr rfl) (Preset.v_ne_nil hw v)
    (Preset.wf_v_length hw v).2

end

/-- A delta token is a magnitude of a tier or an escape (R94). -/
theorem tier_or_escape (d : DeltaTok) :
    (∃ i neg f, i ≤ 4 ∧ f < 2 ^ deltaWidth i ∧ d = tierTok i neg f) ∨ ∃ e, d = .escape e := by
  cases d with
  | tier0 neg m => exact .inl ⟨0, neg, m.toNat, by omega, m.isLt, by simp [tierTok]⟩
  | tier1 neg m => exact .inl ⟨1, neg, m.toNat, by omega, m.isLt, by simp [tierTok]⟩
  | tier2 neg m => exact .inl ⟨2, neg, m.toNat, by omega, m.isLt, by simp [tierTok]⟩
  | tier3 neg m => exact .inl ⟨3, neg, m.toNat, by omega, m.isLt, by simp [tierTok]⟩
  | tier4 neg m => exact .inl ⟨4, neg, m.toNat, by omega, m.isLt, by simp [tierTok]⟩
  | escape e => exact .inr ⟨e, rfl⟩

theorem yields_takeDelta (d : DeltaTok) : Yields takeDelta (deltaTokBits d) d := by
  obtain ⟨i, neg, f, hi, hf, rfl⟩ | ⟨e, rfl⟩ := tier_or_escape d
  · rw [deltaTokBits_tierTok neg hi hf]
    exact (yields_takeStep (by omega)).bind (.ite_false (by omega)
      ((yields_takeBit neg).bind ((yields_takeField hf).rename rfl)))
  · exact (yields_takeStep (Nat.le_refl 5)).bind (.ite_true rfl
      ((yields_takeStep (Nat.le_of_lt_succ e.isLt)).rename (escapeTok_eq e.isLt)))

/-! ## Payloads -/

theorem yields_takeNibbles (ns : List (BitVec 4)) : Yields (takeNibbles ns.length) (nibbleBits ns) ns := by
  induction ns with
  | nil => exact .pure []
  | cons x ns ih => exact (yields_takeField x.isLt).bind (ih.rename (by simp))

theorem yields_takeBytes (bs : ByteStr) : Yields (takeBytes bs.length) (byteBits bs) bs := by
  induction bs with
  | nil => exact .pure []
  | cons b bs ih => exact (yields_takeField b.isLt).bind (ih.rename (by simp))

theorem yields_takeDigits {ws xs : List Nat} (h : digitsFit ws xs = true) :
    Yields (takeDigits ws) (fieldsOf ws xs) xs := by
  induction ws generalizing xs with
  | nil =>
    cases xs with
    | nil => exact .pure []
    | cons x xs => simp [digitsFit] at h
  | cons n ws ih =>
    cases xs with
    | nil => simp [digitsFit] at h
    | cons x xs =>
      simp only [digitsFit, Bool.and_eq_true, decide_eq_true_eq] at h
      exact (yields_takeField h.1).bind ((ih h.2).rename rfl)

end Sys2Proof.Machine
end

section
/-!
Every well-formed form is read from its encoding: tokens by what stands behind their switch, codes and commands by their
rows.
-/

namespace Sys2Proof.Machine

/-! ## Symbols of NUM -/

section
variable {c : WireCtx} {p : Preset} {i : Instr} {v : Fin 28} {u : BitStr}

theorem isEscape_switchIndex (hw : p.wf = true) : isEscape p switchIndex = true :=
  isEscape_iff.mpr ⟨rfl, Preset.num_esc hw⟩

theorem not_isEscape (h : p.symbol .num v ≠ .esc) : ¬ isEscape p v = true := fun he => h (isEscape_iff.mp he).2

/-- A symbol of NUM that is not ESC is at another index than the switch code. -/
theorem ne_switchIndex_of_num (hw : p.wf = true) (h : p.symbol .num v ≠ .esc) : v ≠ switchIndex := by
  rintro rfl
  exact h (Preset.num_esc hw)

theorem plainNum_iff : plainNum p v = true ↔ specialRow p .num v = none ∧ ¬ isRepeat p v = true := by
  simp [plainNum]

theorem yields_takeNumRow_plain (h : plainNum p v = true) (general : Instr) :
    Yields (takeNumRow p v general) [] general := by
  obtain ⟨hrow, hrpt⟩ := plainNum_iff.mp h
  refine .ite_false hrpt ?_
  rw [hrow]
  exact .pure general

theorem yields_takeNumRow_special (h : specialRow p .num v = some i) (general : Instr) :
    Yields (takeNumRow p v general) [] i := by
  have hrpt : ¬ isRepeat p v = true := by
    rw [isRepeat_iff]
    intro hv
    simp [specialRow, Preset.symbol_of_placesIn hv] at h
  refine .ite_false hrpt ?_
  rw [h]
  exact .pure i

theorem yields_takeNumRow_repeat {n : Nat} (h : isRepeat p v = true) (hn : n < 67732) (general : Instr) :
    Yields (takeNumRow p v general) (cntBits n) (.rpt (n + 4)) :=
  .ite_true h ((yields_takeCount hn).rename rfl)

/-! ## Tokens by their head -/

theorem yields_switch {k : SetId} (hw : c.preset.wf = true) (h : Yields (takeTail c k) u i) :
    Yields (takeToken c) (switchBits c.preset c.set k ++ u) i := by
  by_cases hset : c.set = .delta
  · rw [hset, show switchBits c.preset .delta k = deltaTokBits (.escape 1) ++ c.preset.h k from rfl, List.append_assoc]
    exact .ite_true hset ((yields_takeDelta _).bind (.ite_true rfl ((yields_takeH hw k).bind h)))
  · rw [switchBits_of_ne_delta hset, List.append_assoc]
    exact .ite_false hset ((yields_takeV hw _).bind (.ite_true rfl ((yields_takeH hw k).bind h)))

theorem yields_bare (hw : c.preset.wf = true) (hset : c.set ≠ .delta) (hv : v ≠ switchIndex)
    (h : Yields (takeBare c v) u i) : Yields (takeToken c) (c.preset.v v ++ u) i :=
  .ite_false hset ((yields_takeV hw v).bind (.ite_false hv h))

/-- A symbol of NUM as its row, with the switch to NUM unless NUM is the resting set (R233). -/
theorem yields_numRow (hw : c.preset.wf = true) (hv : c.preset.symbol .num v ≠ .esc)
    (h : ∀ general, Yields (takeNumRow c.preset v general) u i) : Yields (takeToken c) (numBits c v ++ u) i := by
  by_cases hset : c.set = .num
  · rw [numBits_of_num hset]
    exact yields_bare hw (by simp [hset]) (ne_switchIndex_of_num hw hv) (.ite_true hset (h _))
  · rw [numBits_of_ne_num hset, List.append_assoc]
    exact yields_switch hw ((yields_takeV hw v).bind (.ite_false (not_isEscape hv) (.ite_false hset (h _))))

theorem yields_esc (hw : c.preset.wf = true) {k : Nat} (h : Yields (takeEsc c.preset) (stepBits k 5 ++ u) i) :
    Yields (takeToken c) (escBits c k ++ u) i := by
  rw [escBits, List.append_assoc, List.append_assoc]
  exact yields_switch hw ((yields_takeV hw _).bind (.ite_true (isEscape_switchIndex hw) h))

theorem yields_sym_row (hw : c.preset.wf = true) (h : specialRow c.preset .sym v = some i) :
    Yields (takeToken c) (symBits c v) i :=
  yields_switch hw (k := .sym) ((yields_takeV hw v).last (by rw [h]))

/-- A symbol of NUM that is neither ESC nor at another row is read with its switch, or bare in NUM. -/
theorem yields_numSymbol (hw : c.preset.wf = true) (hesc : ¬ isEscape c.preset v = true)
    (hv : c.set = .num ∨ plainNum c.preset v = true) :
    Yields (takeToken c) (switchBits c.preset c.set .num ++ c.preset.v v) (.numSymbol v) := by
  refine yields_switch hw (k := .num) ((yields_takeV hw v).last ?_)
  rw [if_neg hesc]
  by_cases hset : c.set = .num
  · rw [if_pos hset]
  · obtain ⟨hrow, hrpt⟩ := plainNum_iff.mp (hv.resolve_left hset)
    rw [if_neg hset, takeNumRow, if_neg hrpt, hrow]

/-- A code behind the shift in ALPHA (R297). -/
theorem yields_shifted (hw : c.preset.wf = true) (hset : c.set = .alpha)
    (h : Yields (takeTailAlpha c) u i) : Yields (takeToken c) (shiftBits c.preset ++ u) i := by
  have hbits : shiftBits c.preset = switchBits c.preset c.set .alpha := by rw [hset]; rfl
  rw [hbits]
  exact yields_switch hw h

theorem takeTailAlpha_lower (hset : c.set = .alpha) (hu : c.upper = false) : takeTailAlpha c = (do
    let v ← takeV c.preset
    if v = switchIndex then do
      let h ← takeH c.preset
      if h = .alpha then pure .upperOn else reject .notAllUpper
    else if v = spaceIndex then pure .enterd
    else pure (.shift v)) := by
  rw [takeTailAlpha, if_neg (not_not.mpr hset), if_neg (by simp [hu])]

end

/-! ## The tokens -/

section
variable {c : WireCtx} {i : Instr} {v : Fin 28}

theorem yields_symbol (hw : c.preset.wf = true) (h : wellFormed c (.symbol v) = true) :
    Yields (takeToken c) (c.preset.v v) (.symbol v) := by
  simp only [wellFormed, inContext, operandsFit, Bool.and_eq_true, Bool.or_eq_true, decide_eq_true_eq] at h
  obtain ⟨⟨hset, hv⟩, hplain⟩ := h
  have hbare : Yields (takeBare c v) [] (.symbol v) := by
    by_cases hnum : c.set = .num
    · exact .ite_true hnum (yields_takeNumRow_plain (hplain.resolve_left (by simp [hnum])) _)
    · exact .ite_false hnum (.pure _)
  exact List.append_nil (c.preset.v v) ▸ yields_bare hw hset hv hbare

theorem yields_shift (hw : c.preset.wf = true) (hset : c.set = .alpha) (hu : c.upper = false) (hv : 2 ≤ v.val) :
    Yields (takeToken c) (shiftBits c.preset ++ c.preset.v v) (.shift v) := by
  refine yields_shifted hw hset ?_
  rw [takeTailAlpha_lower hset hu]
  refine (yields_takeV hw v).last ?_
  rw [if_neg, if_neg] <;> rintro rfl <;> exact absurd hv (by decide)

theorem yields_enterd (hw : c.preset.wf = true) (hset : c.set = .alpha) (hu : c.upper = false) :
    Yields (takeToken c) (shiftBits c.preset ++ c.preset.v spaceIndex) .enterd := by
  refine yields_shifted hw hset ?_
  rw [takeTailAlpha_lower hset hu]
  exact (yields_takeV hw _).last rfl

theorem yields_upperOn (hw : c.preset.wf = true) (hset : c.set = .alpha) (hu : c.upper = false) :
    Yields (takeToken c) (shiftBits c.preset ++ shiftBits c.preset) .upperOn := by
  refine yields_shifted hw hset ?_
  rw [takeTailAlpha_lower hset hu]
  exact (yields_takeV hw switchIndex).bind ((yields_takeH hw .alpha).last rfl)

theorem yields_upperOff (hw : c.preset.wf = true) (hset : c.set = .alpha) (hu : c.upper = true) :
    Yields (takeToken c) (shiftBits c.preset) .upperOff := by
  refine List.append_nil (shiftBits c.preset) ▸ yields_shifted hw hset ?_
  rw [takeTailAlpha, if_neg (not_not.mpr hset), if_pos hu]
  exact .pure _

theorem yields_toAlpha (hw : c.preset.wf = true) (hset : c.set ≠ .alpha) :
    Yields (takeToken c) (switchBits c.preset c.set .alpha) .toAlpha :=
  List.append_nil (switchBits c.preset c.set .alpha) ▸ yields_switch hw (k := .alpha) (.ite_true hset (.pure _))

theorem yields_symSymbol (hw : c.preset.wf = true) (h : specialRow c.preset .sym v = none) :
    Yields (takeToken c) (symBits c v) (.symSymbol v) :=
  yields_switch hw (k := .sym) ((yields_takeV hw v).last (by rw [h]))

theorem countFits_iff {n : Nat} : countFits n = true ↔ n < 67732 := decide_eq_true_iff

theorem yields_backref0 {len dist : Nat} (hw : c.preset.wf = true)
    (h : wellFormed c (.backref0 len dist) = true) :
    Yields (takeToken c) (encode c (.backref0 len dist)) (.backref0 len dist) := by
  simp only [wellFormed, inContext, operandsFit, countFits_iff, Bool.and_eq_true, Bool.not_eq_true',
    decide_eq_true_eq] at h
  obtain ⟨hl, ⟨⟨hlen, hlen'⟩, hdist⟩, hdist'⟩ := h
  rw [encode_of_payload_nil rfl, encodeHead, List.append_assoc]
  refine yields_switch hw (k := .dict) ((yields_takeCount hlen').bind ((yields_takeCount hdist').last ?_))
  simp [hl, Nat.sub_add_cancel hlen, Nat.sub_add_cancel hdist]

theorem yields_backref1 {len x line : Nat} (hw : c.preset.wf = true)
    (h : wellFormed c (.backref1 len x line) = true) :
    Yields (takeToken c) (encode c (.backref1 len x line)) (.backref1 len x line) := by
  simp only [wellFormed, inContext, operandsFit, countFits_iff, Bool.and_eq_true, decide_eq_true_eq] at h
  obtain ⟨hl, ⟨⟨hlen, hlen'⟩, hx⟩, hline⟩ := h
  rw [encode_of_payload_nil rfl, encodeHead, List.append_assoc, List.append_assoc]
  refine yields_switch hw (k := .dict) ((yields_takeCount hlen').bind ((yields_takeCount hx).bind (.ite_true hl
    ((yields_takeCount hline).rename ?_))))
  simp [Nat.sub_add_cancel hlen]

theorem yields_uni1 {d : DeltaTok} (hw : c.preset.wf = true) (hset : c.set ≠ .delta) (hd : d ≠ .escape 1) :
    Yields (takeToken c) (encode c (.uni1 d)) (.uni1 d) := by
  rw [encode_of_payload_nil rfl, encodeHead, ← switchBits_of_ne_delta hset]
  exact yields_switch hw (.ite_false hset ((yields_takeDelta d).last (if_neg hd)))

theorem yields_rpt {r : Nat} (hw : c.preset.wf = true) (h : wellFormed c (.rpt r) = true) :
    Yields (takeToken c) (encode c (.rpt r)) (.rpt r) := by
  simp only [wellFormed, inContext, operandsFit, countFits_iff, Bool.and_eq_true, decide_eq_true_eq] at h
  obtain ⟨-, ⟨hr, hfit⟩, hplace⟩ := h
  obtain ⟨v, hv⟩ := List.length_eq_one_iff.mp hplace
  obtain ⟨n, rfl⟩ := Nat.exists_eq_add_of_le' hr
  rw [encode_of_payload_nil rfl, encodeHead, Preset.indexIn_of_placesIn hv, Nat.add_sub_cancel]
  exact yields_numRow hw (by rw [Preset.symbol_of_placesIn hv]; simp)
    (yields_takeNumRow_repeat (isRepeat_iff.mpr hv) hfit)

/-- The row of a symbol of NUM is read from its bits. -/
theorem yields_num_row (hw : c.preset.wf = true) (h : specialRow c.preset .num v = some i) :
    Yields (takeToken c) (encode c i) i := by
  have hesc : c.preset.symbol .num v ≠ .esc := fun he => by simp [specialRow, he] at h
  rw [encode_special_num h]
  exact List.append_nil (numBits c v) ▸ yields_numRow hw hesc (yields_takeNumRow_special h)

theorem yields_term (hw : c.preset.wf = true) : Yields (takeToken c) (encode c .term) .term :=
  yields_num_row hw (specialRow_term (Preset.placesIn_term hw (Preset.num_term hw)))

theorem freqPlaced_cases {p : Preset} {k : Fin 6} (h : freqPlaced p k = true) :
    ∃ set v, set ≠ .alpha ∧ p.places (.freq k) = [(set, v)] := by
  rw [freqPlaced] at h
  split at h
  case h_1 v hv => exact ⟨.sym, v, by decide, hv⟩
  case h_2 v hv => exact ⟨.num, v, by decide, hv⟩
  case h_3 => cases h

theorem yields_freqRow {k : Fin 6} (hw : c.preset.wf = true) (h : freqPlaced c.preset k = true) :
    Yields (takeToken c) (encode c (freqRow k)) (freqRow k) := by
  obtain ⟨set, v, hset, hv⟩ := freqPlaced_cases h
  have hrow := specialRow_freq hset hv
  cases set with
  | alpha => exact absurd rfl hset
  | sym => exact encode_special_sym hrow ▸ yields_sym_row hw hrow
  | num => exact yields_num_row hw hrow

theorem yields_control {y : Symbol} {bs : ByteStr} (hw : c.preset.wf = true) (hi : ControlRow i y bs)
    (h : symPlaced c.preset y = true) : Yields (takeToken c) (encode c i) i := by
  obtain ⟨v, hv⟩ := List.length_eq_one_iff.mp (of_decide_eq_true h)
  have hrow := specialRow_control hi hv
  exact encode_special_sym hrow ▸ yields_sym_row hw hrow

/-! ## The ESC tokens -/

theorem yields_template {idx : Fin 5} {rem : Nat} {xs : List Nat} (hw : c.preset.wf = true)
    (h : templateFits c.preset idx rem xs = true) :
    Yields (takeToken c) (encode c (.esc0Template idx rem xs)) (.esc0Template idx rem xs) := by
  rw [templateFits] at h
  cases ht : c.preset.tmpl[idx] with
  | none => simp [ht] at h
  | some t =>
    simp only [ht, countFits_iff, Bool.and_eq_true, decide_eq_true_eq] at h
    obtain ⟨⟨hle, hrem⟩, hfit⟩ := h
    have hwidths : sentWidths c.preset idx.val rem = placeholderWidths (t.take (t.length - rem)) := by
      rw [sentWidths, templateOf_eq, ht]
      exact if_pos hle
    have hidx : Fin.ofNat 5 idx.val = idx := Fin.ext (Nat.mod_eq_of_lt idx.isLt)
    show Yields _ (escBits c 0 ++ stepBits idx.val 4 ++ cntBits rem ++ fieldsOf (sentWidths c.preset idx.val rem) xs) _
    rw [List.append_assoc, List.append_assoc]
    refine yields_esc hw ((yields_takeStep (by omega)).bind ?_)
    refine (yields_takeStep (Nat.le_of_lt_succ idx.isLt)).bind ((yields_takeCount hrem).bind ?_)
    exact (yields_takeDigits (hwidths ▸ hfit)).rename (by rw [hidx])

/-- A counted run behind its sub-code. -/
theorem yields_counted {α : Type} {f : Nat → Parse (List α)} {form : List α → Instr} {xs : List α} {bits : BitStr}
    (hn : countFits xs.length = true) (hf : Yields (f xs.length) bits xs) :
    Yields (do let n ← takeCount; let ys ← f n; pure (form ys) : Parse Instr) (cntBits xs.length ++ bits) (form xs) :=
  (yields_takeCount (countFits_iff.mp hn)).bind (hf.rename rfl)

theorem yields_nibbles_guid {ns : List (BitVec 4)} (h : ns.length = 32) : Yields (takeNibbles 32) (nibbleBits ns) ns :=
  h ▸ yields_takeNibbles ns

theorem yields_hexLower {ns : List (BitVec 4)} (hw : c.preset.wf = true) (hn : countFits ns.length = true) :
    Yields (takeToken c) (encode c (.esc1HexLower ns)) (.esc1HexLower ns) := by
  show Yields _ (escBits c 1 ++ cntBits ns.length ++ nibbleBits ns) _
  rw [List.append_assoc]
  exact yields_esc hw ((yields_takeStep (by omega)).bind (yields_counted hn (yields_takeNibbles ns)))

theorem yields_hexUpper {ns : List (BitVec 4)} (hw : c.preset.wf = true) (hn : countFits ns.length = true) :
    Yields (takeToken c) (encode c (.esc3HexUpper ns)) (.esc3HexUpper ns) := by
  show Yields _ (escBits c 3 ++ cntBits ns.length ++ nibbleBits ns) _
  rw [List.append_assoc]
  exact yields_esc hw ((yields_takeStep (by omega)).bind (yields_counted hn (yields_takeNibbles ns)))

theorem yields_binary {bs : ByteStr} (hw : c.preset.wf = true) (hn : countFits bs.length = true) :
    Yields (takeToken c) (encode c (.esc5Binary bs)) (.esc5Binary bs) := by
  show Yields _ (escBits c 5 ++ cntBits bs.length ++ byteBits bs) _
  rw [List.append_assoc]
  exact yields_esc hw ((yields_takeStep (by omega)).bind (yields_counted hn (yields_takeBytes bs)))

theorem yields_guidLower {ns : List (BitVec 4)} (hw : c.preset.wf = true) (h : ns.length = 32) :
    Yields (takeToken c) (encode c (.esc2GuidLower ns)) (.esc2GuidLower ns) :=
  yields_esc hw ((yields_takeStep (by omega)).bind ((yields_nibbles_guid h).rename rfl))

theorem yields_guidUpper {ns : List (BitVec 4)} (hw : c.preset.wf = true) (h : ns.length = 32) :
    Yields (takeToken c) (encode c (.esc4GuidUpper ns)) (.esc4GuidUpper ns) :=
  yields_esc hw ((yields_takeStep (by omega)).bind ((yields_nibbles_guid h).rename rfl))

/-- A well-formed token is read from its encoding (R94). -/
theorem yields_token (hw : c.preset.wf = true) (hi : wellFormed c i = true) (hr : readerOf i = .token) :
    Yields (takeToken c) (encode c i) i := by
  have hbare (h : encodePayload c i = []) (hy : Yields (takeToken c) (encodeHead c i) i) :
      Yields (takeToken c) (encode c i) i := by rwa [encode_of_payload_nil h]
  have hfit := hi
  simp only [wellFormed, Bool.and_eq_true] at hfit
  obtain ⟨hctx, hfit⟩ := hfit
  cases i with
  | symbol v => exact hbare rfl (yields_symbol hw hi)
  | shift v =>
    obtain ⟨hset, hu, hv⟩ := of_decide_eq_true hctx
    exact hbare rfl (yields_shift hw hset hu hv)
  | upperOn =>
    obtain ⟨hset, hu⟩ := of_decide_eq_true hctx
    exact hbare rfl (yields_upperOn hw hset hu)
  | upperOff =>
    obtain ⟨hset, hu⟩ := of_decide_eq_true hctx
    exact hbare rfl (yields_upperOff hw hset hu)
  | toAlpha => exact hbare rfl (yields_toAlpha hw (of_decide_eq_true hctx))
  | enterd =>
    obtain ⟨hset, hu⟩ := of_decide_eq_true hctx
    exact hbare rfl (yields_enterd hw hset hu)
  | symSymbol v => exact hbare rfl (yields_symSymbol hw (of_decide_eq_true hfit))
  | numSymbol v =>
    simp only [operandsFit, Bool.and_eq_true, Bool.or_eq_true, Bool.not_eq_true', decide_eq_true_eq] at hfit
    exact hbare rfl (yields_numSymbol hw (by simp [hfit.1]) hfit.2)
  | backref0 len dist => exact yields_backref0 hw hi
  | backref1 len x line => exact yields_backref1 hw hi
  | uni1 d => exact yields_uni1 hw (of_decide_eq_true hctx) (of_decide_eq_true hfit)
  | rpt r => exact yields_rpt hw hi
  | term => exact yields_term hw
  | esc0Template idx rem xs => exact yields_template hw hfit
  | esc1HexLower ns => exact yields_hexLower hw (Bool.and_elim_right hfit)
  | esc2GuidLower ns => exact yields_guidLower hw (of_decide_eq_true hfit)
  | esc3HexUpper ns => exact yields_hexUpper hw (Bool.and_elim_right hfit)
  | esc4GuidUpper ns => exact yields_guidUpper hw (of_decide_eq_true hfit)
  | esc5Binary bs => exact yields_binary hw (Bool.and_elim_right hfit)
  | freq0 => exact yields_freqRow (k := 0) hw hfit
  | freq1 => exact yields_freqRow (k := 1) hw hfit
  | freq2 => exact yields_freqRow (k := 2) hw hfit
  | freq3 => exact yields_freqRow (k := 3) hw hfit
  | freq4 => exact yields_freqRow (k := 4) hw hfit
  | freq5 => exact yields_freqRow (k := 5) hw hfit
  | ctrlLf => exact yields_control hw .lf hfit
  | ctrlCrlf => exact yields_control hw .crlf hfit
  | ctrlTab => exact yields_control hw .tab hfit
  | ctrlCr => exact yields_control hw .cr hfit
  | _ => cases hr

end

/-! ## The rows of each reader -/

section
variable {c : WireCtx} {i : Instr}

theorem exists_commandNumber (h : readerOf i = .command) : ∃ n, commandNumber i = some n := by
  cases i <;> cases h <;> exact ⟨_, rfl⟩

theorem exists_horizontalRow (h : readerOf i = .horizontal) : ∃ k, i = horizontalRow k := by
  cases i <;> cases h
  exacts [⟨.alpha, rfl⟩, ⟨.sym, rfl⟩, ⟨.num, rfl⟩, ⟨.dict, rfl⟩, ⟨.delta, rfl⟩]

theorem exists_verticalRow (h : readerOf i = .vertical) : ∃ v, i = verticalRow v := by
  cases i <;> cases h
  exacts [⟨0, rfl⟩, ⟨1, rfl⟩, ⟨2, rfl⟩, ⟨3, rfl⟩, ⟨4, rfl⟩, ⟨5, rfl⟩, ⟨6, rfl⟩, ⟨7, rfl⟩, ⟨8, rfl⟩, ⟨9, rfl⟩,
    ⟨10, rfl⟩, ⟨11, rfl⟩, ⟨12, rfl⟩, ⟨13, rfl⟩, ⟨14, rfl⟩, ⟨15, rfl⟩, ⟨16, rfl⟩, ⟨17, rfl⟩, ⟨18, rfl⟩, ⟨19, rfl⟩,
    ⟨20, rfl⟩, ⟨21, rfl⟩, ⟨22, rfl⟩, ⟨23, rfl⟩, ⟨24, rfl⟩, ⟨25, rfl⟩, ⟨26, rfl⟩, ⟨27, rfl⟩]

theorem exists_step4Row (h : readerOf i = .step4) : ∃ k, k ≤ 4 ∧ i = step4Row k := by
  cases i <;> cases h
  exacts [⟨0, by omega, rfl⟩, ⟨1, by omega, rfl⟩, ⟨2, by omega, rfl⟩, ⟨3, by omega, rfl⟩, ⟨4, by omega, rfl⟩]

theorem exists_step5Row (h : readerOf i = .step5) : ∃ k, k ≤ 5 ∧ i = step5Row k := by
  cases i <;> cases h
  exacts [⟨0, by omega, rfl⟩, ⟨1, by omega, rfl⟩, ⟨2, by omega, rfl⟩, ⟨3, by omega, rfl⟩, ⟨4, by omega, rfl⟩,
    ⟨5, by omega, rfl⟩]

theorem exists_countRow (h : readerOf i = .count) : ∃ k f, k ≤ 4 ∧ f < 2 ^ countWidth k ∧ i = countRow k f := by
  cases i with
  | cntTier0 f => exact ⟨0, f.toNat, by omega, f.isLt, by simp [countRow]⟩
  | cntTier1 f => exact ⟨1, f.toNat, by omega, f.isLt, by simp [countRow]⟩
  | cntTier2 f => exact ⟨2, f.toNat, by omega, f.isLt, by simp [countRow]⟩
  | cntTier3 f => exact ⟨3, f.toNat, by omega, f.isLt, by simp [countRow]⟩
  | cntTier4 f => exact ⟨4, f.toNat, by omega, f.isLt, by simp [countRow]⟩
  | _ => cases h

theorem exists_deltaRow (h : readerOf i = .delta) : ∃ d, i = deltaRow d := by
  cases i with
  | dltTier0 neg m => exact ⟨.tier0 neg m, rfl⟩
  | dltTier1 neg m => exact ⟨.tier1 neg m, rfl⟩
  | dltTier2 neg m => exact ⟨.tier2 neg m, rfl⟩
  | dltTier3 neg m => exact ⟨.tier3 neg m, rfl⟩
  | dltTier4 neg m => exact ⟨.tier4 neg m, rfl⟩
  | desc0 => exact ⟨.escape 0, rfl⟩
  | desc1 => exact ⟨.escape 1, rfl⟩
  | desc2 => exact ⟨.escape 2, rfl⟩
  | desc3 => exact ⟨.escape 3, rfl⟩
  | desc4 => exact ⟨.escape 4, rfl⟩
  | _ => cases h

/-- A command is what its number decodes to (R90, R91). -/
theorem decodeCommand_of_commandNumber {n : BitVec 8} (h : commandNumber i = some n) (hi : wellFormed c i = true) :
    decodeCommand n = i := by
  cases i with
  | illegal k => exact Laws.CommandNumber.illegal k c n h hi
  | _ => cases h <;> rfl

/-! ## The readers -/

theorem yields_takeCommand (hi : wellFormed c i = true) (hr : readerOf i = .command) :
    Yields (take .command c) (encode c i) i := by
  obtain ⟨n, hn⟩ := exists_commandNumber hr
  rw [encode_of_commandNumber hn]
  exact (yields_takeField n.isLt).rename (by simp [decodeCommand_of_commandNumber hn hi])

theorem yields_takeCountRow {k f : Nat} (hk : k ≤ 4) (hf : f < 2 ^ countWidth k) :
    Yields (take .count c) (encode c (countRow k f)) (countRow k f) := by
  rw [encode_countRow hk hf]
  exact (yields_takeStep hk).bind ((yields_takeField hf).rename rfl)

theorem yields_takeSwitch (hw : c.preset.wf = true) (hi : wellFormed c i = true) (hr : readerOf i = .switch) :
    Yields (take .switch c) (encode c i) i := by
  simp only [wellFormed, Bool.and_eq_true] at hi
  obtain ⟨hctx, -⟩ := hi
  cases i with
  | swResting h =>
    rw [encode_of_payload_nil rfl]
    exact .ite_false (of_decide_eq_true hctx)
      ((yields_takeV hw switchIndex).bind (.ite_true rfl ((yields_takeH hw h).rename rfl)))
  | swDelta h =>
    rw [encode_of_payload_nil rfl]
    exact .ite_true (of_decide_eq_true hctx)
      ((yields_takeDelta (.escape 1)).bind (.ite_true rfl ((yields_takeH hw h).rename rfl)))
  | _ => cases hr

/-- Bits that are skipped unread are of any value (R93, R162). -/
theorem yields_skipped (w : BitStr) (i : Instr) :
    Yields (do let _ ← takeField w.length; pure i : Parse Instr) w i :=
  (yields_takeFieldFrom 0 w).rename rfl

theorem yields_take (hw : c.preset.wf = true) (hi : wellFormed c i = true) :
    Yields (take (readerOf i) c) (encode c i) i := by
  cases hr : readerOf i with
  | command => exact yields_takeCommand hi hr
  | marker =>
    cases i <;> cases hr
    have h := yields_skipped (List.replicate c.magicLen true) .magic
    rw [List.length_replicate] at h
    rwa [encode_of_payload_nil rfl]
  | padding =>
    cases i <;> cases hr
    have h := yields_skipped (List.replicate c.padLen c.padBit) .pad
    rw [List.length_replicate] at h
    rwa [encode_of_payload_nil rfl]
  | horizontal =>
    obtain ⟨h, rfl⟩ := exists_horizontalRow hr
    exact encode_horizontalRow c h ▸ (yields_takeH hw h).rename rfl
  | vertical =>
    obtain ⟨v, rfl⟩ := exists_verticalRow hr
    exact encode_verticalRow c v ▸ (yields_takeV hw v).rename rfl
  | step4 =>
    obtain ⟨k, hk, rfl⟩ := exists_step4Row hr
    exact encode_step4Row hk c ▸ (yields_takeStep hk).rename rfl
  | step5 =>
    obtain ⟨k, hk, rfl⟩ := exists_step5Row hr
    exact encode_step5Row hk c ▸ (yields_takeStep hk).rename rfl
  | count =>
    obtain ⟨k, f, hk, hf, rfl⟩ := exists_countRow hr
    exact yields_takeCountRow hk hf
  | delta =>
    obtain ⟨d, rfl⟩ := exists_deltaRow hr
    exact encode_deltaRow d c ▸ (yields_takeDelta d).rename rfl
  | switch => exact yields_takeSwitch hw hi hr
  | token => exact yields_token hw hi hr

/-- In DELTA a delta token but the escape SWITCH is a token (R303). -/
theorem yields_delta_token (hset : c.set = .delta) (hr : readerOf i = .delta) (hi : i ≠ .desc1) :
    Yields (takeToken c) (encode c i) i := by
  obtain ⟨d, rfl⟩ := exists_deltaRow hr
  rw [encode_deltaRow]
  refine .ite_true hset ((yields_takeDelta d).last (if_neg ?_))
  rintro rfl
  exact hi rfl

end

/-- Settles O5: each reader answers the form encoded, reader by reader and token by token. -/
theorem encodedFormsDecodeToThemselves : Obligations.EncodedFormsDecodeToThemselves :=
  fun _ _ rest hw _ hi =>
    ⟨decode_eq_ok_iff.mpr (yields_take hw hi rest),
      fun hset hr hne => decode_eq_ok_iff.mpr (yields_delta_token hset hr hne rest)⟩

end Sys2Proof.Machine
end

section
/-!
The decoder and the automaton on the bits that are left of IN: a parser that answers and the reader that answers with
it, and the payloads of the ESC tokens, which the automaton writes as it reads them (R244, R247, R250, R257, R293).
-/

namespace Sys2Proof.Machine

/-! ## A parser and the reader that goes with it -/

theorem remainingBits_length (s : State) : (remainingBits s).length = 8 * s.ilen - s.roff := by
  simp [remainingBits]

/-- Where no padding has been read and a parser answers on the bits that are left, a reader answers what goes with it
and has passed over the bits consumed, none of them padding. -/
def Mirrors {α β : Type} (p : Parse α) (r : Cmd β) (g : α → β) (R : α → BitStr → Prop) : Prop :=
  ∀ (t : State) (x : α) (rest : BitStr), t.reos = false → p (remainingBits t) = .ok x rest →
    ∃ w, R x w ∧ r t = .ok (g x) (t.skipped w.length) ∧ rest = remainingBits (t.skipped w.length)

section
variable {α β : Type} {p : Parse α} {r : Cmd β} {g : α → β} {R : α → BitStr → Prop}

/-- Bits of IN that are read set no flag (R124). -/
theorem State.afterRead_eq_skipped {t : State} {n : Nat} (ht : t.reos = false) (h : n ≤ 8 * t.ilen - t.roff) :
    t.afterRead n = t.skipped n := by
  rw [State.afterRead, decide_eq_false (by omega), ht, Bool.or_false, ← ht]
  rfl

/-- A reader in step with a parser has passed over what the parser consumes. -/
theorem InStep.mirrors {S : α → β → Nat → Prop} (h : InStep p r S) (hp : Consumes p R)
    (hS : ∀ x y n, S x y n → y = g x) : Mirrors p r g R := by
  intro t x rest ht hx
  obtain ⟨y, n, hy, hn, hr, hrest⟩ := h t x rest hx
  obtain ⟨w, hbits, hR⟩ := hp _ x rest hx
  have hlen := congrArg List.length hbits
  rw [hrest, List.length_append, remainingBits_length, remainingBits_length, State.afterRead_ilen,
    State.afterRead_roff] at hlen
  obtain rfl : w.length = n := by omega
  rw [State.afterRead_eq_skipped ht hn] at hr hrest
  exact ⟨w, hR, hS x y _ hy ▸ hr, hrest⟩

/-- The test of padding behind a code does not change what is read before the end of IN (R293). -/
theorem Mirrors.element (h : Mirrors p r g R) : Mirrors p (readElement r) g R := by
  intro t x rest ht hx
  obtain ⟨w, hR, hr, hrest⟩ := h t x rest ht hx
  exact ⟨w, hR, readElement_ok hr ht, hrest⟩

end

theorem mirrors_getBits (n : Nat) : Mirrors (takeField n) (getBits n) id fun x w => x < 2 ^ n ∧ w = field n x :=
  (inStep_getBits n).mirrors (consumes_takeField n) fun _ _ _ h => h.1.symm

theorem mirrors_readStep (c : Nat) : Mirrors (takeStep c) (readStep c) id fun i w => i ≤ c ∧ w = stepBits i c :=
  (inStep_readStep c).mirrors (consumes_takeStep c) fun _ _ _ h => h.1.symm

theorem inStep_readCnt : InStep takeCount readCnt fun x y _ => y = x := by
  refine (inStep_readStep 4).bind ?_
  rintro i _ m ⟨rfl, -, -⟩
  refine (inStep_getBits _).bind ?_
  rintro f _ m ⟨rfl, -, -⟩
  exact .pure rfl

theorem mirrors_readCnt : Mirrors takeCount readCnt id fun v w => v < 67732 ∧ w = cntBits v :=
  inStep_readCnt.mirrors consumes_takeCount fun _ _ _ h => h

theorem mirrors_readV (p : Preset) :
    Mirrors (takeV p) (readCode (verticalCodes p) [] 8) id fun v w => w = p.v v :=
  (inStep_readCode _ _ _ _).mirrors (consumes_takeV p) fun _ _ _ h => h.1.symm

theorem mirrors_readH (p : Preset) :
    Mirrors (takeH p) (readCode (horizontalCodes p) [] 8) id fun h w => w = p.h h :=
  (inStep_readCode _ _ _ _).mirrors (consumes_takeH p) fun _ _ _ h => h.1.symm

theorem deltaTokHead_tierTok {i f : Nat} (hi : i ≤ 4) (hf : f < 2 ^ deltaWidth i) (neg : Bool) :
    deltaTokHead (tierTok i neg f) = .delta (deltaValue i neg f) := by
  have hvalue : (BitVec.ofNat (deltaWidth i) f).toNat = f := toNat_field hf
  interval_cases i <;> exact congrArg (fun k => DeltaHead.delta (deltaValue _ neg k)) hvalue

theorem inStep_readDeltaHead : InStep takeDelta readDeltaHead fun d y _ => y = deltaTokHead d := by
  refine (inStep_readStep 5).bind ?_
  rintro i _ m ⟨rfl, hi, -⟩
  by_cases hesc : i = 5
  · rw [if_pos hesc, if_pos hesc]
    refine (inStep_readStep 4).bind ?_
    rintro e _ m ⟨rfl, he, -⟩
    exact .pure (by rw [escapeTok_eq (Nat.lt_succ_of_le he)]; rfl)
  · rw [if_neg hesc, if_neg hesc]
    refine inStep_getBit.bind ?_
    rintro neg _ m ⟨rfl, -⟩
    refine (inStep_getBits _).bind ?_
    rintro f _ m ⟨rfl, hf, -⟩
    exact .pure (deltaTokHead_tierTok (by omega) hf neg).symm

theorem mirrors_readDeltaHead : Mirrors takeDelta readDeltaHead deltaTokHead fun d w => w = deltaTokBits d :=
  inStep_readDeltaHead.mirrors consumes_takeDelta fun _ _ _ h => h

/-! ## Payloads written as they are read -/

/-- What leaves the stream as it is: after it the same bits are left of IN and no padding has been read. -/
def KeepsInput (c : Cmd Unit) : Prop :=
  ∀ t u, c t = .ok () u → u.reos = t.reos ∧ remainingBits u = remainingBits t

theorem keepsInput_putByte (b : Byte) : KeepsInput (putByte b) := by
  intro t u h
  by_cases hroom : t.room 1
  · rw [putByte_room hroom] at h
    cases h
    exact ⟨rfl, rfl⟩
  · obtain ⟨v, hv, -⟩ := putByte_full (b := b) hroom
    rw [hv] at h
    cases h

theorem keepsInput_putGuidNibble (up : HexCase) (q x : Nat) : KeepsInput (putGuidNibble up q x) := by
  intro t u h
  rw [putGuidNibble, Cmd.bind_run] at h
  cases hput : putByte (hexChar x up) t with
  | error e v => rw [hput] at h; cases h
  | ok _ v =>
    rw [hput] at h
    obtain ⟨hreos, hbits⟩ := keepsInput_putByte _ t v hput
    dsimp only at h
    split_ifs at h with hhyphen
    · obtain ⟨hreos', hbits'⟩ := keepsInput_putByte _ v u h
      exact ⟨hreos'.trans hreos, hbits'.trans hbits⟩
    · cases h
      exact ⟨hreos, hbits⟩

/-- Where a parser answers on the bits that are left, a loop that reads does what a form does with the answer. -/
def Replays {α : Type} (p : Parse α) (loop : Cmd Unit) (form : α → Cmd Unit) : Prop :=
  ∀ (t : State) (x : α) (rest : BitStr), t.reos = false → p (remainingBits t) = .ok x rest → loop t = form x t

section
variable {α β : Type} {p : Parse α} {loop : Cmd Unit} {form : α → Cmd Unit}

theorem Replays.pure (x : α) (h : loop = form x) : Replays (pure x) loop form := by
  rintro t _ _ - ⟨rfl, rfl⟩
  rw [h]

/-- Something done before both that keeps the stream. -/
theorem Replays.after {c : Cmd Unit} (hc : KeepsInput c) (h : Replays p loop form) :
    Replays p (do c; loop) fun x => (do c; form x : Cmd Unit) := by
  intro t x rest ht hx
  show (c >>= fun _ => loop) t = (c >>= fun _ => form x) t
  rw [Cmd.bind_run, Cmd.bind_run]
  cases hstep : c t with
  | error e v => rfl
  | ok _ v =>
    obtain ⟨hkeep, hbits⟩ := hc t v hstep
    exact h v x rest (hkeep.trans ht) (hbits ▸ hx)

/-- A field read, what is done with it, and a loop behind it (R293). -/
theorem Replays.field {w : Nat} {put : Nat → Cmd Unit} {cons : Nat → α → β} {form' : β → Cmd Unit}
    (hput : ∀ x, KeepsInput (put x)) (h : Replays p loop form)
    (hform : ∀ x a, x < 2 ^ w → form' (cons x a) = (do consume (field w x); put x; form a : Cmd Unit)) :
    Replays (do let x ← takeField w; let a ← p; Pure.pure (cons x a))
      (do let x ← getBits w; eos; put x; loop) form' := by
  intro t y rest ht hy
  obtain ⟨x, mid, hx, hy⟩ := Parse.bind_ok hy
  obtain ⟨a, mid', ha, hpure⟩ := Parse.bind_ok hy
  cases hpure
  obtain ⟨f, ⟨hlt, rfl⟩, hread, rfl⟩ := mirrors_getBits w t x mid ht hx
  have hreos : (t.skipped (Machine.field w x).length).reos = false := ht
  rw [hform x a hlt, Cmd.bind_run, hread, Cmd.bind_run, consume_skips]
  dsimp only [id]
  rw [Cmd.bind_run, eos_run, if_neg (by simp [hreos])]
  exact h.after (hput x) _ a rest hreos ha

/-- A test that comes out alike on both sides. -/
theorem Replays.tested {P : Prop} {Q : α → Prop} [Decidable P] [∀ x, Decidable (Q x)] {e : Status}
    {R : α → BitStr → Prop} (hp : Consumes p R) (hPQ : ∀ x w, R x w → (P ↔ Q x)) (h : Replays p loop form) :
    Replays p (do require P e; loop) fun x => (do require (Q x) e; form x : Cmd Unit) := by
  intro t x rest ht hx
  obtain ⟨w, -, hR⟩ := hp _ x rest hx
  show (require P e >>= fun _ => loop) t = (require (Q x) e >>= fun _ => form x) t
  rw [Cmd.bind_run, Cmd.bind_run, require_run, require_run]
  by_cases hP : P
  · rw [if_pos hP, if_pos ((hPQ x w hR).mp hP)]
    exact h t x rest ht hx
  · rw [if_neg hP, if_neg (mt (hPQ x w hR).mpr hP)]

end

theorem replays_hexLoop (up : HexCase) (n : Nat) : Replays (takeNibbles n) (hexLoop up n) (putNibbles up) := by
  induction n with
  | zero => exact .pure [] rfl
  | succ n ih =>
    refine ih.field (put := fun x => putByte (hexChar x up)) (fun x => keepsInput_putByte _) fun x ns hx => ?_
    rw [putNibbles, toNat_field hx]

theorem replays_guidLoop (up : HexCase) (q n : Nat) : Replays (takeNibbles n) (guidLoop up q n) (putGuid up q) := by
  induction n generalizing q with
  | zero => exact .pure [] rfl
  | succ n ih =>
    refine (ih (q + 1)).field (put := putGuidNibble up q) (keepsInput_putGuidNibble up q) fun x ns hx => ?_
    rw [putGuid, toNat_field hx]

theorem replays_binLoop (n : Nat) : Replays (takeBytes n) (binLoop n) putRaw := by
  induction n with
  | zero => exact .pure [] rfl
  | succ n ih =>
    refine ih.field (put := fun x => putByte (BitVec.ofNat 8 x)) (fun x => keepsInput_putByte _) fun x bs hx => ?_
    rw [putRaw, toNat_field hx]

theorem replays_templateLoop (ts : ByteStr) :
    Replays (takeDigits (placeholderWidths ts)) (templateLoop ts) (putTemplate ts) := by
  induction ts with
  | nil => exact .pure [] rfl
  | cons t ts ih =>
    cases hwidth : letterWidth t with
    | none =>
      have hwidths : placeholderWidths (t :: ts) = placeholderWidths ts := by rw [placeholderWidths, hwidth]
      have hloop : templateLoop (t :: ts) = (do putByte t; templateLoop ts : Cmd Unit) := by rw [templateLoop, hwidth]
      have hform : putTemplate (t :: ts) = fun xs => (do putByte t; putTemplate ts xs : Cmd Unit) := by
        funext xs
        rw [putTemplate, hwidth]
      rw [hwidths, hloop, hform]
      exact ih.after (keepsInput_putByte t)
    | some w =>
      have hwidths : placeholderWidths (t :: ts) = w :: placeholderWidths ts := by rw [placeholderWidths, hwidth]
      have hloop : templateLoop (t :: ts) =
          (do let x ← getBits w; eos; putByte (letterByte t x); templateLoop ts : Cmd Unit) := by
        rw [templateLoop, hwidth]
      rw [hwidths, hloop]
      refine ih.field (put := fun x => putByte (letterByte t x)) (fun x => keepsInput_putByte _) fun x xs _ => ?_
      rw [putTemplate, hwidth]

end Sys2Proof.Machine
end

section
/-!
A turn of the automaton does what the row of the token it fetches does (R292, R294, log entry 10): a parser of the
decoder and the automaton's pseudocode go side by side, up to the row that the parser answers.
-/

namespace Sys2Proof.Machine

/-! ## A row and what it does -/

/-- The row of an instruction, executed in a state, ends its turn as a given run does. -/
def RunsAs (s : State) (i : Instr) (r : EStateM.Result Status State Unit) : Prop :=
  ∃ body, inContext (wireCtx s) i = true ∧ exec i s = tokenForm i body s ∧ body (s.consumed i) = r

/-- Once some bits are consumed from a state, pseudocode ends the turn as the row does that a parser answers. -/
def Executes (s b : State) (u : BitStr) (p : Parse Instr) (c : Cmd Unit) : Prop :=
  ∀ (i : Instr) (rest : BitStr), p (remainingBits (b.skipped u.length)) = .ok i rest →
    RunsAs s i (c (b.skipped u.length))

theorem State.skipped_append (s : State) (a b : BitStr) :
    (s.skipped a.length).skipped b.length = s.skipped (a ++ b).length := by
  rw [State.skipped_skipped, List.length_append]

/-- A row whose bits up to its payload are consumed. -/
theorem RunsAs.of_head {s : State} {i : Instr} {u : BitStr} {body : Cmd Unit} (hc : inContext (wireCtx s) i = true)
    (hi : exec i s = tokenForm i body s) (hu : encodeHead (wireCtx s) i = u) :
    RunsAs s i (body (s.skipped u.length)) := by
  subst hu
  exact ⟨body, hc, hi, rfl⟩

theorem RunsAs.eq {s : State} {i : Instr} {r r' : EStateM.Result Status State Unit} (h : RunsAs s i r) (he : r' = r) :
    RunsAs s i r' := he ▸ h

section
variable {s b : State} {u : BitStr} {α β : Type} {p : Parse α} {r : Cmd β} {g : α → β} {R : α → BitStr → Prop}
  {f : α → Parse Instr} {k : β → Cmd Unit} {q : Parse Instr} {c : Cmd Unit}

theorem Executes.pure {i : Instr} (h : RunsAs s i (c (b.skipped u.length))) : Executes s b u (pure i) c := by
  rintro _ _ ⟨rfl, rfl⟩
  exact h

theorem Executes.reject (e : DecodeError) : Executes s b u (reject e) c := nofun

theorem Executes.read (hb : b.reos = false) (hr : Mirrors p r g R)
    (h : ∀ x w, R x w → Executes s b (u ++ w) (f x) (k (g x))) : Executes s b u (p >>= f) (r >>= k) := by
  intro i rest hi
  obtain ⟨x, mid, hx, hf⟩ := Parse.bind_ok hi
  obtain ⟨w, hR, hread, rfl⟩ := hr _ x mid (by exact hb) hx
  rw [State.skipped_append] at hread hf
  rw [Cmd.bind_run, hread]
  exact h x w hR i rest hf

/-- A read with the test of padding behind it (R293). -/
theorem Executes.readEos (hb : b.reos = false) (hr : Mirrors p r g R)
    (h : ∀ x w, R x w → Executes s b (u ++ w) (f x) (k (g x))) :
    Executes s b u (p >>= f) (do let y ← r; eos; k y) := by
  refine .read hb hr fun x w hR i rest hi => ?_
  have hreos : (b.skipped (u ++ w).length).reos = false := hb
  rw [Cmd.bind_run, eos_run, hreos]
  exact h x w hR i rest hi

theorem Executes.look {δ : Type} {l : State → δ} {m : δ → Cmd Unit}
    (h : Executes s b u q (m (l (b.skipped u.length)))) : Executes s b u q (look l >>= m) := h

theorem Executes.readState {m : State → Cmd Unit} (h : Executes s b u q (m (b.skipped u.length))) :
    Executes s b u q (readState >>= m) := h

theorem Executes.ite {P : Prop} [Decidable P] {q' : Parse Instr} {c' : Cmd Unit} (h : P → Executes s b u q c)
    (h' : ¬ P → Executes s b u q' c') : Executes s b u (if P then q else q') (if P then c else c') := by
  split
  · exact h ‹_›
  · exact h' ‹_›

theorem Executes.eq {c' : Cmd Unit} (h : Executes s b u q c) (he : c' (b.skipped u.length) = c (b.skipped u.length)) :
    Executes s b u q c' := fun i rest hi => (h i rest hi).eq he

/-- A loop that reads its payload, and the row that carries it. -/
theorem Executes.replay {row : α → Instr} {form : α → Cmd Unit} (hb : b.reos = false) (hp : Consumes p R)
    (hl : Replays p c form) (h : ∀ x w, R x w → RunsAs s (row x) (form x (b.skipped u.length))) :
    Executes s b u (p >>= fun x => Pure.pure (row x)) c := by
  intro i rest hi
  obtain ⟨x, mid, hx, hpure⟩ := Parse.bind_ok hi
  cases hpure
  obtain ⟨w, -, hR⟩ := hp _ x rest hx
  rw [hl _ x rest (by exact hb) hx]
  exact h x w hR

end

/-! ## Symbols with a row of their own -/

section
variable {i : Instr} {y : Symbol} {bs : ByteStr} {s t : State} {v : Fin 28}

theorem exec_control (h : ControlRow i y bs) (s : State) : exec i s = tokenForm i (putBytes bs) s := by
  cases h with
  | crlf => rfl
  | lf => rw [putBytes_singleton]; rfl
  | tab => rw [putBytes_singleton]; rfl
  | cr => rw [putBytes_singleton]; rfl

theorem inContext_control (h : ControlRow i y bs) (c : WireCtx) : inContext c i = true := by
  cases h <;> rfl

theorem doSymbol_control (h : ControlRow i y bs) (hv : t.preset.symbol .sym v = y) :
    doSymbol .sym v t = putBytes bs t := by
  cases h with
  | crlf => exact doSymbol_crlf hv
  | lf => exact doSymbol_chr_of_ne_alpha (by decide) hv
  | tab => exact doSymbol_chr_of_ne_alpha (by decide) hv
  | cr => exact doSymbol_chr_of_ne_alpha (by decide) hv

/-- The state once NUM is the resting set. -/
def State.atNum (s : State) : State := { s with curSet := .num }

theorem State.atNum_of_num (h : s.curSet = .num) : s.atNum = s := by
  rw [State.atNum, ← h]

/-- A row of NUM once its bits up to its payload are consumed. -/
theorem RunsAs.of_num {u : BitStr} {body : Cmd Unit} (hc : inContext (wireCtx s) i = true)
    (hi : exec i s = tokenForm i (inNum body) s) (hu : encodeHead (wireCtx s) i = u) :
    RunsAs s i (body (s.atNum.skipped u.length)) :=
  RunsAs.of_head (body := inNum body) hc hi hu

/-- A symbol of SYM at a row of its own does what the row does. -/
theorem runsAs_specialSym (h : specialRow s.preset .sym v = some i) :
    RunsAs s i (doSymbol .sym v (s.skipped (symBits (wireCtx s) v).length)) := by
  have hhead : encodeHead (wireCtx s) i = symBits (wireCtx s) v := encodeHead_sym_row h
  obtain ⟨y, bs, hrow, hv⟩ | ⟨k, rfl, hv⟩ := specialRow_sym_cases h
  · exact (RunsAs.of_head (inContext_control hrow _) (exec_control hrow s) hhead).eq
      (doSymbol_control hrow (Preset.symbol_of_placesIn hv))
  · refine (RunsAs.of_head (inContext_freqRow k _) (exec_freqRow k s) hhead).eq ?_
    have hform := freqForm_run (s := s.skipped (symBits (wireCtx s) v).length) hv
    exact (doSymbol_freq (s := s.skipped _) (Preset.symbol_of_places hv)).trans (hform.trans (if_pos rfl)).symm

/-- A symbol of NUM at a row of its own does what the row does. -/
theorem runsAs_specialNum (h : specialRow s.preset .num v = some i) :
    RunsAs s i (doSymbol .num v (s.atNum.skipped (numBits (wireCtx s) v).length)) := by
  have hhead : encodeHead (wireCtx s) i = numBits (wireCtx s) v := encodeHead_num_row h
  obtain ⟨rfl, hv⟩ | ⟨k, rfl, hv⟩ := specialRow_num_cases h
  · exact (RunsAs.of_num (body := raise .endTerm) rfl rfl hhead).eq (doSymbol_term (Preset.symbol_of_placesIn hv))
  · refine (RunsAs.of_head (inContext_freqRow k _) (exec_freqRow k s) hhead).eq ?_
    have hform := freqForm_run (s := s.skipped (numBits (wireCtx s) v).length) hv
    exact (doSymbol_freq (s := s.atNum.skipped _) (Preset.symbol_of_places hv)).trans
      (hform.trans (if_neg (by decide))).symm

end

/-! ## NUM -/

section
variable {s : State} {u : BitStr} {v : Fin 28}

/-- A symbol of NUM does what its row does (R94, R295). -/
theorem executes_numRow {general : Instr} (hs : s.reos = false) (hu : numBits (wireCtx s) v = u)
    (h : RunsAs s general (doSymbol .num v (s.atNum.skipped u.length))) :
    Executes s s.atNum u (takeNumRow s.preset v general) (doSymbol .num v) := by
  unfold takeNumRow
  split
  case isTrue hrpt =>
    have hv := isRepeat_iff.mp hrpt
    have hread : Executes s s.atNum u (do let n ← takeCount; pure (.rpt (n + 4))) expandRepeat := by
      refine .readEos hs mirrors_readCnt ?_
      rintro n _ ⟨-, rfl⟩
      refine .pure (.of_num (body := repeatLast (n + 4)) rfl rfl ?_)
      rw [encodeHead, wireCtx_preset, Preset.indexIn_of_placesIn hv, hu, Nat.add_sub_cancel]
    exact hread.eq (doSymbol_rpt (Preset.symbol_of_placesIn hv))
  case isFalse =>
    cases hrow : specialRow s.preset .num v with
    | some i => exact .pure (hu ▸ runsAs_specialNum hrow)
    | none => exact .pure h

/-- A counted run behind its sub-code: its length is tested before its payload is written (R244, R257). -/
theorem executes_counted {α : Type} [DecidableEq α] {k : Nat} {f : Nat → Parse (List α)} {row : List α → Instr}
    {bits : List α → BitStr} {loop : Nat → Cmd Unit} {form : List α → Cmd Unit} (hs : s.reos = false)
    (hu : u = escBits (wireCtx s) k) (hf : ∀ n, Consumes (f n) fun xs w => xs.length = n ∧ w = bits xs)
    (hl : ∀ n, Replays (f n) (loop n) form)
    (hrow : ∀ xs, RunsAs s (row xs)
      ((do require (xs ≠ []) .malformed; form xs : Cmd Unit)
        (s.atNum.skipped (escBits (wireCtx s) k ++ cntBits xs.length).length))) :
    Executes s s.atNum u (do let n ← takeCount; let xs ← f n; pure (row xs))
      (do let n ← readCnt; eos; require (n ≠ 0) .malformed; loop n) := by
  subst hu
  refine .readEos hs mirrors_readCnt ?_
  rintro n _ ⟨-, rfl⟩
  refine .replay hs (hf n) ((hl n).tested (Q := fun xs => xs ≠ []) (hf n) ?_) ?_
  · rintro xs _ ⟨rfl, -⟩
    exact List.length_eq_zero_iff.not
  · rintro xs _ ⟨rfl, -⟩
    exact hrow xs

theorem executes_template (hs : s.reos = false) (hu : u = escBits (wireCtx s) 0) :
    Executes s s.atNum u (do
      let idx ← takeStep 4
      let rem ← takeCount
      let digits ← takeDigits (sentWidths s.preset idx rem)
      pure (.esc0Template (Fin.ofNat 5 idx) rem digits)) expandTemplate := by
  subst hu
  refine .read hs (mirrors_readStep 4) ?_
  rintro idx _ ⟨hidx, rfl⟩
  refine .readEos hs mirrors_readCnt ?_
  rintro rem _ ⟨-, rfl⟩
  obtain ⟨j, rfl⟩ : ∃ j : Fin 5, j.val = idx := ⟨⟨idx, Nat.lt_succ_of_le hidx⟩, rfl⟩
  have hj : Fin.ofNat 5 j.val = j := Fin.ext (Nat.mod_eq_of_lt j.isLt)
  have hleaf (xs : List Nat) : RunsAs s (.esc0Template j rem xs) (templateForm j rem xs
      (s.skipped (escBits (wireCtx s) 0 ++ stepBits j.val 4 ++ cntBits rem).length)) := .of_head rfl rfl rfl
  refine .look ?_
  rw [hj]
  show Executes s s.atNum _ _ (match templateOf s.preset j.val with | none => _ | some t => _)
  cases ht : s.preset.tmpl[j] with
  | none =>
    rw [templateOf_eq, ht]
    exact .replay hs (consumes_takeDigits _) (fun _ _ _ _ _ => rfl) fun xs _ _ =>
      (hleaf xs).eq (templateForm_absent (s := s.skipped _) ht).symm
  | some t =>
    rw [templateOf_eq, ht]
    have hform (xs : List Nat) := templateForm_run (s := s.skipped
      (escBits (wireCtx s) 0 ++ stepBits j.val 4 ++ cntBits rem).length) (rem := rem) (digits := xs) ht
    by_cases hle : rem ≤ t.length
    · rw [sentWidths_eq ht hle]
      refine .eq (.replay hs (consumes_takeDigits _) (replays_templateLoop _) fun xs _ _ => (hleaf xs).eq ?_)
        ((require_bind_run _ _ _ _).trans (if_pos hle))
      exact ((hform xs).trans (if_pos hle)).symm
    · refine .replay hs (consumes_takeDigits _) (form := fun _ => raise .malformed) ?_ fun xs _ _ => (hleaf xs).eq ?_
      · exact fun u _ _ _ _ => (require_bind_run _ _ _ _).trans (if_neg hle)
      · exact ((hform xs).trans (if_neg hle)).symm

/-- A token behind ESC does what its row does (R295). -/
theorem executes_esc (hs : s.reos = false) (hu : switchBits s.preset s.curSet .num ++ s.preset.v switchIndex = u) :
    Executes s s.atNum u (takeEsc s.preset) expandEsc := by
  rw [expandEsc_eq]
  refine .readEos hs (mirrors_readStep 5) ?_
  rintro k _ ⟨hk, rfl⟩
  have hbits : u ++ stepBits k 5 = escBits (wireCtx s) k := by rw [← hu]; rfl
  interval_cases k
  · exact executes_template hs hbits
  · exact executes_counted hs hbits consumes_takeNibbles (replays_hexLoop .lower) fun ns =>
      .of_head (body := hexForm .lower ns) rfl rfl rfl
  · rw [hbits]
    exact .replay hs (consumes_takeNibbles 32) (replays_guidLoop .lower 0 32) fun ns _ _ =>
      .of_head (body := guidForm .lower ns) rfl rfl rfl
  · exact executes_counted hs hbits consumes_takeNibbles (replays_hexLoop .upper) fun ns =>
      .of_head (body := hexForm .upper ns) rfl rfl rfl
  · rw [hbits]
    exact .replay hs (consumes_takeNibbles 32) (replays_guidLoop .upper 0 32) fun ns _ _ =>
      .of_head (body := guidForm .upper ns) rfl rfl rfl
  · exact executes_counted hs hbits consumes_takeBytes replays_binLoop fun bs =>
      .of_head (body := binForm bs) rfl rfl rfl

end

end Sys2Proof.Machine
end

section
/-!
The tokens of the automaton by their heads, and `DEC.STEP` as the row of the token it fetches (R290 to R307, log entry
10).
-/

namespace Sys2Proof.Machine

/-! ## Codes -/

section
variable {s b : State} {u : BitStr}

/-- A vertical code, read by the decoder and by the automaton with its test of padding (R164, R293). -/
theorem Executes.readV {f : Fin 28 → Parse Instr} {k : Fin 28 → Cmd Unit} (hb : b.reos = false)
    (h : ∀ v, Executes s b (u ++ b.preset.v v) (f v) (k v)) :
    Executes s b u (takeV b.preset >>= f) (readElement Machine.readV >>= k) :=
  (Executes.read hb (mirrors_readV b.preset).element fun v _ hw => hw ▸ h v).eq rfl

theorem Executes.readH {f : SetId → Parse Instr} {k : SetId → Cmd Unit} (hb : b.reos = false)
    (h : ∀ x, Executes s b (u ++ b.preset.h x) (f x) (k x)) :
    Executes s b u (takeH b.preset >>= f) (readElement Machine.readH >>= k) :=
  (Executes.read hb (mirrors_readH b.preset).element fun x _ hw => hw ▸ h x).eq rfl

end

/-! ## The tails of a switch -/

section
variable {s : State}

theorem executes_tailSym (hs : s.reos = false) :
    Executes s s (switchBits s.preset s.curSet .sym) (takeTail (wireCtx s) .sym) (doTail .sym) := by
  refine .readV hs fun v => ?_
  cases hrow : specialRow (wireCtx s).preset .sym v with
  | some i => exact .pure (runsAs_specialSym hrow)
  | none => exact .pure (.of_head (body := doSymbol .sym v) rfl rfl rfl)

theorem executes_tailNum (hs : s.reos = false) :
    Executes s s (switchBits s.preset s.curSet .num) (takeTail (wireCtx s) .num) (doTail .num) := by
  suffices hread : Executes s s.atNum (switchBits s.preset s.curSet .num) (takeTail (wireCtx s) .num)
      (readElement readV >>= doSymbol .num) from hread
  refine .readV hs fun v => ?_
  have hrow : RunsAs s (.numSymbol v) (doSymbol .num v
      (s.atNum.skipped (switchBits s.preset s.curSet .num ++ s.preset.v v).length)) :=
    .of_num (body := doSymbol .num v) rfl rfl rfl
  split
  case isTrue hesc =>
    obtain ⟨rfl, hsymbol⟩ := isEscape_iff.mp hesc
    exact (executes_esc hs rfl).eq (doSymbol_esc hsymbol)
  case isFalse =>
    split
    case isTrue => exact .pure hrow
    case isFalse hset => exact executes_numRow hs (numBits_of_ne_num hset v) hrow

/-- A back-reference, with a line index while the line history is on (R236). -/
theorem executes_tailDict (hs : s.reos = false) :
    Executes s s (switchBits s.preset s.curSet .dict) (takeTail (wireCtx s) .dict) (doTail .dict) := by
  refine .read hs mirrors_readCnt ?_
  rintro l _ ⟨-, rfl⟩
  refine .read hs mirrors_readCnt ?_
  rintro x _ ⟨-, rfl⟩
  refine .look (.ite (fun hl => ?_) fun hl => .pure ?_)
  · refine .readEos hs mirrors_readCnt ?_
    rintro line _ ⟨-, rfl⟩
    refine .pure (.of_head (body := copyRef (l + Config.minMatch) x line) hl rfl ?_)
    rw [encodeHead, Nat.add_sub_cancel]
    rfl
  · have hhead : encodeHead (wireCtx s) (.backref0 (l + Config.minMatch) (x + (Config.minMatch - 1))) =
        switchBits s.preset s.curSet .dict ++ cntBits l ++ cntBits x := by
      rw [encodeHead, Nat.add_sub_cancel, Nat.add_sub_cancel]
      rfl
    refine (RunsAs.of_head (by simpa [inContext] using hl) rfl hhead).eq ?_
    show (eos >>= fun _ => copyRef (l + Config.minMatch) x 0) _ = _
    rw [Cmd.bind_run, eos_run, show (s.skipped _).reos = false from hs, Nat.add_sub_cancel]
    rfl

theorem executes_tailDelta (hs : s.reos = false) :
    Executes s s (switchBits s.preset s.curSet .delta) (takeTail (wireCtx s) .delta) (doTail .delta) := by
  refine .look ?_
  show Executes s s _ (if s.curSet = .delta then _ else _) (if s.curSet = .delta then _ else _)
  refine .ite (fun hset => .pure ?_) fun hset => .readEos hs mirrors_readDeltaHead ?_
  · have hhead : encodeHead (wireCtx s) (.swDelta .delta) = switchBits s.preset s.curSet .delta := by
      rw [encodeHead, hset]
      rfl
    refine (RunsAs.of_head (i := .swDelta .delta) (body := doTail .delta) (decide_eq_true hset) rfl hhead).eq ?_
    show _ = (if s.curSet = .delta then pure () else transientDelta : Cmd Unit) _
    rw [if_pos hset]
  · rintro d _ rfl
    split
    case isTrue => exact .reject _
    case isFalse =>
      refine .pure (.of_head (i := .uni1 d) (body := deltaEffect (raise .malformed) (deltaTokHead d))
        (decide_eq_true hset) rfl ?_)
      rw [encodeHead, switchBits_of_ne_delta hset]
      rfl

theorem executes_tailAlpha (hs : s.reos = false) :
    Executes s s (switchBits s.preset s.curSet .alpha) (takeTail (wireCtx s) .alpha) (doTail .alpha) := by
  refine .readState ?_
  show Executes s s _ (if s.curSet ≠ .alpha then _ else if s.upper then _ else _)
    (if s.curSet ≠ .alpha then _ else if s.upper then _ else _)
  refine .ite (fun hset => .pure (.of_head (decide_eq_true hset) rfl rfl)) fun hset => ?_
  have hset : s.curSet = .alpha := not_not.mp hset
  have hshift : switchBits s.preset s.curSet .alpha = shiftBits s.preset := by rw [hset]; rfl
  rw [hshift]
  refine .ite (fun hu => .pure (.of_head (by simp [inContext, hset, hu]) rfl rfl)) fun hu => .readV hs fun v => ?_
  refine .ite (fun hv => .readH hs fun h => ?_) fun hv => .ite (fun hv => ?_) fun hv' => ?_
  · subst hv
    split
    case isTrue hh =>
      subst hh
      refine .pure (.of_head (i := .upperOn) (body := setUpper true) (by simp [inContext, hset, hu]) rfl ?_)
      exact (List.append_assoc _ _ _).symm
    case isFalse => exact .reject _
  · subst hv
    exact .pure (.of_head (i := .enterd) (by simp [inContext, hset, hu]) rfl rfl)
  · have hv2 : 2 ≤ v.val := by
      have h0 : v.val ≠ 0 := fun h => hv (Fin.ext h)
      have h1 : v.val ≠ 1 := fun h => hv' (Fin.ext h)
      omega
    exact .pure (.of_head (i := .shift v) (by simp [inContext, hset, hu, hv2]) rfl rfl)

/-- The tail of a switch does what the row of the token does (R296). -/
theorem executes_tail (hs : s.reos = false) (k : SetId) :
    Executes s s (switchBits s.preset s.curSet k) (takeTail (wireCtx s) k) (doTail k) := by
  cases k with
  | alpha => exact executes_tailAlpha hs
  | sym => exact executes_tailSym hs
  | num => exact executes_tailNum hs
  | dict => exact executes_tailDict hs
  | delta => exact executes_tailDelta hs

/-! ## Tokens -/

/-- A bare symbol of the resting set does what its row does (R295). -/
theorem executes_bare {set : SymSet} {v : Fin 28} (hs : s.reos = false) (hset : restingSymbols s.curSet = some set)
    (hv : v ≠ switchIndex) : Executes s s (s.preset.v v) (takeBare (wireCtx s) v) (doSymbol set v) := by
  have hdelta : s.curSet ≠ .delta := by rintro hd; rw [hd] at hset; cases hset
  have hrow : RunsAs s (.symbol v) (doSymbol set v (s.skipped (s.preset.v v).length)) :=
    (RunsAs.of_head (body := bareSymbol v) (by simp [inContext, hdelta, hv]) rfl rfl).eq
      (bareSymbol_run (s := s.skipped _) hset).symm
  unfold takeBare
  split
  case isTrue hnum =>
    have hnum : s.curSet = .num := hnum
    obtain rfl : set = .num := by rw [hnum] at hset; exact (Option.some.inj hset).symm
    have hexec := executes_numRow (general := .symbol v) hs (numBits_of_num hnum v) (by rwa [State.atNum_of_num hnum])
    rwa [State.atNum_of_num hnum] at hexec
  case isFalse => exact .pure hrow

theorem executes_verticalToken {set : SymSet} (hs : s.reos = false) (hset : restingSymbols s.curSet = some set) :
    Executes s s [] (takeToken (wireCtx s)) (verticalToken set) := by
  have hdelta : s.curSet ≠ .delta := by rintro hd; rw [hd] at hset; cases hset
  rw [takeToken, if_neg (by exact hdelta)]
  refine .readV hs fun v => .ite (fun hv => .readH hs fun k => ?_) fun hv => executes_bare hs hset hv
  have htail := executes_tail hs k
  rwa [switchBits_of_ne_delta hdelta, ← hv] at htail

/-- In DELTA the escape SWITCH goes on (R303, R307). -/
theorem deltaForm_inDelta (d : DeltaTok) (hset : s.curSet = .delta) :
    deltaForm d s = deltaEffect switchInDelta (deltaTokHead d) s := by
  rw [deltaForm, Cmd.bind_run, look_run]
  dsimp only
  rw [if_pos hset]

theorem executes_restingDelta (hs : s.reos = false) (hset : s.curSet = .delta) :
    Executes s s [] (takeToken (wireCtx s)) restingDelta := by
  rw [takeToken, if_pos (by exact hset)]
  refine .readEos hs mirrors_readDeltaHead ?_
  rintro d _ rfl
  split
  case isTrue hd =>
    subst hd
    refine .readH hs fun k => ?_
    have htail := executes_tail hs k
    rwa [hset] at htail
  case isFalse =>
    refine .pure ((RunsAs.of_head (inContext_deltaRow d _) (exec_deltaRow d s) (encodeHead_deltaRow d _)).eq ?_)
    exact (deltaForm_inDelta d (s := s.skipped _) hset).symm

theorem takeToken_nil (c : WireCtx) : takeToken c [] = .error .endOfBits [] := by
  rw [takeToken]
  split <;> rfl

theorem fetchAndRun_before_end (h : s.roff < 8 * s.ilen) :
    fetchAndRun s = match restingSymbols s.curSet with
      | none => restingDelta s
      | some set => verticalToken set s := by
  rw [fetchAndRun, Cmd.bind_run, readState_run]
  dsimp only
  rw [Cmd.bind_run, require_run, if_pos h]
  dsimp only
  cases restingSymbols s.curSet <;> rfl

/-- A turn of the automaton does what the row of the token does that the decoder reads at `ROFF` (R292). -/
theorem executes_token (hs : s.reos = false) : Executes s s [] (takeToken (wireCtx s)) fetchAndRun := by
  intro i rest hi
  have hlt : s.roff < 8 * s.ilen := by
    by_contra hle
    have hnil : remainingBits (s.skipped 0) = [] := remainingBits_nil (s := s.skipped 0) (Nat.le_of_not_lt hle)
    rw [List.length_nil, hnil, takeToken_nil] at hi
    cases hi
  have hfetch := fetchAndRun_before_end hlt
  cases hset : s.curSet with
  | alpha =>
    rw [hset] at hfetch
    exact (executes_verticalToken hs (by rw [hset]; rfl) i rest hi).eq hfetch
  | num =>
    rw [hset] at hfetch
    exact (executes_verticalToken hs (by rw [hset]; rfl) i rest hi).eq hfetch
  | delta =>
    rw [hset] at hfetch
    exact (executes_restingDelta hs hset i rest hi).eq hfetch

/-! ## DEC.STEP -/

theorem wireForm_eq_some {r : Reader} {i : Instr} (h : wireForm r s = some i) :
    ∃ rest, take r (wireCtx s) (remainingBits s) = .ok i rest := by
  rw [wireForm, decode] at h
  cases htake : take r (wireCtx s) (remainingBits s) with
  | ok j rest => rw [htake] at h; cases h; exact ⟨rest, rfl⟩
  | error e rest => rw [htake] at h; cases h

/-- A command of DEC mode whose turn of the automaton ends as a row does answers the state that the row answers. -/
theorem RunsAs.turn_eq {i : Instr} {body : Cmd Unit} (hs : s.running) (h : RunsAs s i (body s)) :
    modeCommand .dec (automaton body) s = exec i s := by
  obtain ⟨form, hc, hexec, hform⟩ := h
  have hconsumed : form { s with roff := s.roff + (encodeHead (wireCtx s) i).length } = body s := hform
  obtain ⟨⟨hready, hmode⟩, hhalt, -⟩ := hs
  rw [hexec, tokenForm, modeCommand_run hready hmode, modeCommand_run hready hmode]
  simp only [endCommand, Cmd.bind_run, readState_run, require_run, if_pos hc, automaton, if_pos hhalt, consumeForm_run,
    hconsumed]

end

/-- Settles O3: the decoder and the automaton read the token side by side, and both turns end as its row does. -/
theorem decStepRunsTheTokenItFetches : Obligations.DecStepRunsTheTokenItFetches := by
  intro s i hs hi
  obtain ⟨rest, hdec⟩ := wireForm_eq_some hi
  have hstep : exec .decStep s = exec i s := (executes_token hs.2.2 i rest hdec).turn_eq hs
  exact ⟨_, rfl, hstep.symm⟩

end Sys2Proof.Machine
end

section
/-!
The forms that move the resting set and all-uppercase mode, and the bare switches, which go on with the tail that
follows (R151, R296 to R299, R303, R307).
-/

namespace Sys2Proof.Machine

/-! ## Rows that end a turn alike -/

section
variable {s : State} {i j : Instr} {r : EStateM.Result Status State Unit}

theorem RunsAs.exec_eq (hs : s.running) (hi : RunsAs s i r) (hj : RunsAs s j r) : exec i s = exec j s :=
  (RunsAs.turn_eq (body := fun _ => r) hs hi).symm.trans (RunsAs.turn_eq (body := fun _ => r) hs hj)

theorem RunsAs.decStep_eq (hs : s.running) (h : RunsAs s i (fetchAndRun s)) : exec .decStep s = exec i s :=
  h.turn_eq hs

/-- A row that moves the modes and outputs nothing. -/
theorem RunsAs.moves {n : Nat} {c : Resting} {u : Bool} (hs : s.running)
    (h : RunsAs s i (.ok () { s.skipped n with curSet := c, upper := u })) :
    exec i s = .next { s.tokenDone n [] with curSet := c, upper := u } := by
  obtain ⟨body, hc, hexec, hbody⟩ := h
  rw [hexec, tokenForm_ok hs hc hbody]
  simp only [State.skipped, Nat.sub_self]
  rfl

/-- A row that halts MALFORMED before it outputs anything or moves the modes (R345). -/
theorem RunsAs.malformed {n : Nat} (hs : s.running) (h : RunsAs s i (.error .malformed (s.skipped n))) :
    exec i s = .next (s.malformedAt n) := by
  obtain ⟨body, hc, hexec, hbody⟩ := h
  rw [hexec, tokenForm_error hs hc hbody]
  simp only [State.skipped, Nat.sub_self]
  rfl

end

/-! ## The bare switches -/

section
variable {s : State} {k : SetId}

/-- A bare switch goes on with the tail of its set (R296). -/
theorem runsAs_swResting (hset : s.curSet ≠ .delta) (k : SetId) :
    RunsAs s (.swResting k) (doTail k (s.skipped (s.formLength (.swResting k)))) := by
  rw [State.formLength_eq_headLength rfl]
  exact .of_head (body := doTail k) (decide_eq_true hset) rfl rfl

theorem runsAs_swDelta (hset : s.curSet = .delta) (k : SetId) :
    RunsAs s (.swDelta k) (doTail k (s.skipped (s.formLength (.swDelta k)))) := by
  rw [State.formLength_eq_headLength rfl]
  exact .of_head (body := doTail k) (decide_eq_true hset) rfl rfl

theorem formLength_swResting (hset : s.curSet ≠ .delta) (k : SetId) :
    s.formLength (.swResting k) = (switchBits s.preset s.curSet k).length := by
  rw [State.formLength_eq_headLength rfl, switchBits_of_ne_delta hset]
  rfl

theorem formLength_swDelta (hset : s.curSet = .delta) (k : SetId) :
    s.formLength (.swDelta k) = (switchBits s.preset s.curSet k).length := by
  rw [State.formLength_eq_headLength rfl, hset]
  rfl

/-- A switch that stands at `ROFF` sends the turn to the tail of its set (R292, R307). -/
theorem fetch_bareSwitch (hs : s.running) (hw : s.preset.wf = true)
    (h : switchBits s.preset s.curSet k <+: remainingBits s) :
    fetchAndRun s = doTail k (s.skipped (switchBits s.preset s.curSet k).length) := by
  have hholds := State.holds_of_prefix (switchBits_ne_nil hw _ _) h
  rw [fetch_switch ⟨hs.2.2, hw⟩ hholds, State.afterRead_of_holds hholds]
  rfl

/-- The escape SWITCH in DELTA reads the horizontal code behind it, and is the switch of the two (R303, R307). -/
theorem runsAs_desc1 (hs : s.running) (hset : s.curSet = .delta) (hw : s.preset.wf = true)
    (h : switchBits s.preset s.curSet k <+: remainingBits s) :
    RunsAs s .desc1 (doTail k (s.skipped (s.formLength (.swDelta k)))) := by
  have hholds := State.holds_of_prefix (switchBits_ne_nil hw _ _) h
  have hbits : switchBits s.preset s.curSet k = escapeBits 1 ++ s.preset.h k := by rw [hset]; rfl
  rw [formLength_swDelta hset, hbits]
  rw [hbits] at hholds
  obtain ⟨hesc, hcode⟩ := State.holds_append.mp hholds
  refine (RunsAs.of_head (i := .desc1) (body := deltaForm (.escape 1)) rfl rfl rfl).eq ?_
  rw [deltaForm_inDelta (s := s.skipped _) (.escape 1) hset]
  show _ = switchInDelta (s.skipped (escapeBits 1).length)
  have hskip : s.afterRead (escapeBits 1).length = s.skipped (escapeBits 1).length := State.afterRead_of_holds hesc
  have hreading := State.reading_afterRead ⟨hs.2.2, hw⟩ hesc
  rw [hskip] at hcode hreading
  rw [switchInDelta, readElement_readH hreading hcode, ← State.skipped_append]
  exact congrArg (doTail k) (State.afterRead_of_holds hcode).symm

/-- A bare switch before a whole token does what the token does (R94, R296). -/
theorem swResting_token {i : Instr} (hs : s.running) (hw : s.preset.wf = true) (hset : s.curSet ≠ .delta)
    (h : switchBits s.preset s.curSet k <+: remainingBits s) (hi : wireForm .token s = some i) :
    ∃ t, exec (.swResting k) s = .next t ∧ exec i s = .next t := by
  obtain ⟨rest, hdec⟩ := wireForm_eq_some hi
  have hrow : RunsAs s i (doTail k (s.skipped (s.formLength (.swResting k)))) := by
    rw [formLength_swResting hset, ← fetch_bareSwitch hs hw h]
    exact executes_token hs.2.2 i rest hdec
  exact ⟨_, rfl, hrow.exec_eq hs (runsAs_swResting hset k)⟩

theorem swDelta_token {i : Instr} (hs : s.running) (hw : s.preset.wf = true) (hset : s.curSet = .delta)
    (h : switchBits s.preset s.curSet k <+: remainingBits s) (hi : wireForm .token s = some i) :
    ∃ t, exec (.swDelta k) s = .next t ∧ exec .desc1 s = .next t ∧ exec i s = .next t := by
  obtain ⟨rest, hdec⟩ := wireForm_eq_some hi
  have hrow : RunsAs s i (doTail k (s.skipped (s.formLength (.swDelta k)))) := by
    rw [formLength_swDelta hset, ← fetch_bareSwitch hs hw h]
    exact executes_token hs.2.2 i rest hdec
  have hswitch := runsAs_swDelta hset k
  exact ⟨_, rfl, (runsAs_desc1 hs hset hw h).exec_eq hs hswitch, hrow.exec_eq hs hswitch⟩

end

/-! ## The tail of ALPHA -/

section
variable {s : State}

theorem tailAlpha_toAlpha (h : s.curSet ≠ .alpha) : doTail .alpha s = .ok () { s with curSet := .alpha } := by
  rw [doTail, tailAlpha, Cmd.bind_run, readState_run]
  dsimp only
  rw [if_pos h, enterSet_alpha_run]

theorem tailAlpha_upperOff (h : s.curSet = .alpha) (hu : s.upper = true) :
    doTail .alpha s = .ok () { s with upper := false } := by
  rw [doTail, tailAlpha, Cmd.bind_run, readState_run]
  dsimp only
  rw [if_neg (not_not.mpr h), if_pos hu, setUpper_run]

/-- All-upper on that is not completed: another code than that of ALPHA behind the second switch code (R298, R345
M4). -/
theorem fetch_notAllUpper {h : SetId} {bits : BitStr} (hs : s.running) (hset : s.curSet = .alpha) (hu : s.upper = false)
    (hw : s.preset.wf = true) (hh : h ≠ .alpha)
    (hbits : bits = s.preset.v 0 ++ s.preset.h .alpha ++ s.preset.v 0 ++ s.preset.h h)
    (hpre : bits <+: remainingBits s) : fetchAndRun s = .error .malformed (s.skipped bits.length) := by
  subst hbits
  have hholds := State.holds_of_prefix (by simp [Preset.v_ne_nil hw]) hpre
  have hshift : s.preset.v 0 ++ s.preset.h .alpha ++ s.preset.v 0 = shiftBits s.preset ++ s.preset.v switchIndex := rfl
  rw [hshift] at hholds ⊢
  have hreading : s.reading := ⟨hs.2.2, hw⟩
  obtain ⟨hv, hcode⟩ := State.holds_append.mp hholds
  rw [fetch_shifted hreading hset hu hv, afterShift, if_pos rfl,
    readElement_readH (State.reading_afterRead hreading hv) hcode, Cmd.bind_run, require_run, if_neg hh,
    State.afterRead_afterRead]
  dsimp only
  rw [← List.length_append]
  exact congrArg (EStateM.Result.error Status.malformed) (State.afterRead_of_holds hholds)

end

/-! ## The forms -/

section
variable {s : State}

theorem execModes_alpha (hs : s.running) (hset : s.curSet = .alpha) (hu : s.upper = false) :
    exec .upperOn s = .next { s.tokenDone (s.formLength .upperOn) [] with upper := true } ∧
      exec .enterd s = .next { s.tokenDone (s.formLength .enterd) [] with curSet := .delta } := by
  rw [State.formLength_eq_headLength rfl, State.formLength_eq_headLength rfl]
  exact ⟨(RunsAs.of_head (body := setUpper true) (by simp [inContext, hset, hu]) rfl rfl).moves hs,
    (RunsAs.of_head (body := update fun t => { t with curSet := .delta }) (by simp [inContext, hset, hu]) rfl
      rfl).moves hs⟩

theorem execModes_upper (hs : s.running) (hset : s.curSet = .alpha) (hu : s.upper = true) :
    exec .upperOff s = .next { s.tokenDone (s.formLength .upperOff) [] with upper := false } ∧
      exec (.swResting .alpha) s =
        .next { s.tokenDone (s.formLength (.swResting .alpha)) [] with upper := false } := by
  have htail := (tailAlpha_upperOff (s := s.skipped (s.formLength (.swResting .alpha))) hset hu).symm
  refine ⟨?_, ((runsAs_swResting (by simp [hset]) .alpha).eq htail).moves hs⟩
  rw [State.formLength_eq_headLength rfl]
  exact (RunsAs.of_head (body := setUpper false) (by simp [inContext, hset, hu]) rfl rfl).moves hs

theorem execToAlpha_moves (hs : s.running) (hset : s.curSet ≠ .alpha) :
    exec .toAlpha s = .next { s.tokenDone (s.formLength .toAlpha) [] with curSet := .alpha } := by
  rw [State.formLength_eq_headLength rfl]
  exact (RunsAs.of_head (i := .toAlpha) (body := enterSet .alpha) (decide_eq_true hset) rfl rfl).moves hs

theorem execSwResting_toAlpha (hs : s.running) (hset : s.curSet = .num) :
    exec (.swResting .alpha) s =
      .next { s.tokenDone (s.formLength (.swResting .alpha)) [] with curSet := .alpha } :=
  ((runsAs_swResting (by simp [hset]) .alpha).eq
    (tailAlpha_toAlpha (s := s.skipped _) (by simp [State.skipped, hset])).symm).moves hs

theorem tailDelta_inDelta (hset : s.curSet = .delta) : doTail .delta s = .ok () s := by
  rw [doTail, Cmd.bind_run, look_run]
  dsimp only
  rw [if_pos hset, Cmd.pure_run]

theorem execSwDelta_moves (hs : s.running) (hset : s.curSet = .delta) :
    exec (.swDelta .alpha) s = .next { s.tokenDone (s.formLength (.swDelta .alpha)) [] with curSet := .alpha } ∧
      exec (.swDelta .delta) s = .next (s.tokenDone (s.formLength (.swDelta .delta)) []) :=
  ⟨((runsAs_swDelta hset .alpha).eq
      (tailAlpha_toAlpha (s := s.skipped _) (by simp [State.skipped, hset])).symm).moves hs,
    ((runsAs_swDelta hset .delta).eq (tailDelta_inDelta (s := s.skipped _) hset).symm).moves hs⟩

/-- In DELTA the escape SWITCH before a horizontal code is the switch of the two. -/
theorem execDesc1_eq_swDelta {k : SetId} (hs : s.running) (hset : s.curSet = .delta) (hw : s.preset.wf = true)
    (h : escapeBits 1 ++ s.preset.h k <+: remainingBits s) : exec .desc1 s = exec (.swDelta k) s := by
  have hbits : switchBits s.preset s.curSet k = escapeBits 1 ++ s.preset.h k := by rw [hset]; rfl
  exact (runsAs_desc1 hs hset hw (hbits ▸ h)).exec_eq hs (runsAs_swDelta hset k)

theorem execSwResting_sym {v : Fin 28} {c : Byte} (hs : s.running) (hset : s.curSet ≠ .delta) (hw : s.preset.wf = true)
    (hroom : s.room 1) (hc : s.preset.symbol .sym v = .chr c)
    (h : s.preset.v 0 ++ s.preset.h .sym ++ s.preset.v v <+: remainingBits s) :
    exec (.swResting .sym) s = .next (s.tokenDone (s.formLength (.symSymbol v)) [c]) := by
  have hbits : s.preset.v 0 ++ s.preset.h .sym = switchBits s.preset s.curSet .sym :=
    (switchBits_of_ne_delta hset _).symm
  rw [hbits] at h
  have hreading : s.reading := ⟨hs.2.2, hw⟩
  have hholds := State.holds_of_prefix (by simp [switchBits_ne_nil hw]) h
  obtain ⟨hswitch, hv⟩ := State.holds_append.mp hholds
  have htail : doTail .sym (s.skipped (s.formLength (.swResting .sym))) =
      doSymbol .sym v (s.skipped (switchBits s.preset s.curSet .sym ++ s.preset.v v).length) := by
    have hskip : s.skipped (s.formLength (.swResting .sym)) =
        s.afterRead (switchBits s.preset s.curSet .sym).length := by
      rw [formLength_swResting hset, State.afterRead_of_holds hswitch]
      rfl
    rw [hskip, doTail_sym (State.reading_afterRead hreading hswitch) hv, State.afterRead_afterRead]
    show doSymbol .sym v (s.afterRead (_ + (s.preset.v v).length)) = _
    rw [← List.length_append, State.afterRead_of_holds hholds]
    rfl
  have hrow : RunsAs s (.symSymbol v) (doTail .sym (s.skipped (s.formLength (.swResting .sym)))) :=
    (RunsAs.of_head (body := doSymbol .sym v) rfl rfl rfl).eq htail
  rw [(runsAs_swResting hset .sym).exec_eq hs hrow, execSymSymbol_chr hs hc hroom]

theorem exec_notAllUpper {h : SetId} {bits : BitStr} (hs : s.running) (hset : s.curSet = .alpha) (hu : s.upper = false)
    (hw : s.preset.wf = true) (hh : h ≠ .alpha)
    (hbits : bits = s.preset.v 0 ++ s.preset.h .alpha ++ s.preset.v 0 ++ s.preset.h h)
    (hpre : bits <+: remainingBits s) :
    exec .decStep s = .next (s.malformedAt bits.length) ∧
      exec (.swResting .alpha) s = .next (s.malformedAt bits.length) := by
  have hfetch := fetch_notAllUpper hs hset hu hw hh hbits hpre
  have hdelta : s.curSet ≠ .delta := by simp [hset]
  have hswitch : switchBits s.preset s.curSet .alpha <+: remainingBits s := by
    rw [switchBits_of_ne_delta hdelta]
    subst hbits
    rw [List.append_assoc] at hpre
    exact (List.prefix_append _ _).trans hpre
  have hrow : RunsAs s (.swResting .alpha) (fetchAndRun s) := by
    rw [fetch_bareSwitch hs hw hswitch, ← formLength_swResting hdelta]
    exact runsAs_swResting hdelta .alpha
  have hhalt := (hrow.eq hfetch.symm).malformed hs
  exact ⟨(hrow.decStep_eq hs).trans hhalt, hhalt⟩

theorem execDesc1_malformed (hs : s.running) (hset : s.curSet ≠ .delta) :
    exec .desc1 s = .next (s.malformedAt (escapeBits 1).length) := by
  refine ((RunsAs.of_head (i := .desc1) (body := deltaForm (.escape 1)) rfl rfl rfl).eq ?_).malformed hs
  rw [deltaForm, Cmd.bind_run, look_run]
  dsimp only
  rw [if_neg (by simpa [State.skipped] using hset)]
  rfl

end

/-- Settles O51: the forms by what they write, the bare switches by the tail they go on with. -/
theorem setFormsMoveTheSetState : Obligations.SetFormsMoveTheSetState := fun _ hs =>
  ⟨execModes_alpha hs, execModes_upper hs, execToAlpha_moves hs, execSwResting_toAlpha hs, execSwDelta_moves hs,
    fun hset hw => ⟨fun h => (execDesc1_eq_swDelta hs hset hw h).trans (execSwDelta_moves hs hset).2,
      fun h => (execDesc1_eq_swDelta hs hset hw h).trans (execSwDelta_moves hs hset).1⟩,
    fun _ _ hset hw hroom hc h => execSwResting_sym hs hset hw hroom hc h,
    fun _ _ hw h hi => ⟨fun hset => swResting_token hs hw hset h hi, fun hset => swDelta_token hs hw hset h hi⟩,
    fun _ _ hset hu hw hh hbits hpre => exec_notAllUpper hs hset hu hw hh hbits hpre, execDesc1_malformed hs⟩

end Sys2Proof.Machine
end

section
/-!
The remaining rows: the numbers that are no command, the words written out in the spec, the codes, and the rows that end
or frame a stream (R90, R91, R93, R96 to R100, R161, R162, log entries 9, 10 and 13).
-/

namespace Sys2Proof.Machine

/-! ## Numbers and words -/

/-- Settles O15: a number that is not listed falls to the last line of the table, whose row is refused. -/
theorem unlistedNumbersAreRefused : Obligations.UnlistedNumbersAreRefused := fun n _ hn =>
  ⟨Laws.unlisted_decodes n (by simpa [unlisted] using hn), rfl⟩

/-- Settles O2: the readers evaluate, bit by bit, on each of the nine words. -/
theorem sampleWordsDecode : Obligations.SampleWordsDecode := by
  refine ⟨?_, ?_, ?_, ?_, ?_, ?_, ?_, ?_, ?_⟩ <;> decide

/-! ## Codes -/

section
variable {s : State}

/-- A code row passes over its bits and answers its value (log entry 9). -/
theorem readForm_run {i : Instr} {w : BitStr} (hs : s.canDecode) (hw : encodeHead (wireCtx s) i = w) (value : Nat) :
    readForm i value s =
      .next { s with roff := s.roff + w.length, r0 := BitVec.ofNat 32 value, status := .ok } := by
  subst hw
  exact decCommand_answers (t := s.skipped _) hs rfl

end

/-- Settles O49: each row is its code, read by its unit command. -/
theorem codeFormsReturnTheirValue : Obligations.CodeFormsReturnTheirValue := by
  refine fun s hs => ⟨fun h => ?_, fun v => ?_, fun i hi => ?_, fun i hi => ?_, fun i f hi hf => ?_⟩
  · rw [exec_horizontalRow, readForm_run hs (encodeHead_horizontalRow _ h)]
    rfl
  · rw [exec_verticalRow, readForm_run hs (encodeHead_verticalRow _ v)]
    rfl
  · rw [exec_step4Row hi, readForm_run hs (encodeHead_step4Row hi _)]
  · rw [exec_step5Row hi, readForm_run hs (encodeHead_step5Row hi _)]
  · rw [exec_countRow hi hf, readForm_run hs (encodeHead_countRow hi hf _), cntBits_add hi hf]

/-! ## The marker, the terminator and the padding -/

section
variable {s : State}

theorem execTerm_halts (hs : s.running) :
    exec .term s =
      .next { s with
        roff := s.roff + s.formLength .term, curSet := .num, r0 := 0, halt := .endTerm, status := .endTerm } := by
  have hbody : inNum (raise .endTerm) (s.consumed .term) =
      .error .endTerm { s.consumed .term with curSet := .num } := rfl
  refine (tokenForm_error hs rfl hbody).trans ?_
  rw [State.formLength_eq_headLength rfl]
  simp only [State.consumed, Nat.sub_self]
  rfl

theorem anyModeCommand_run {body : Cmd Unit} (hs : s.ready = true) :
    anyModeCommand body s = .next (endCommand body s) := by
  simp only [anyModeCommand, endCommand, Cmd.bind_run, checkReady_run, if_pos hs]

theorem execMagic_skips (hs : s.canDecode) : exec .magic s = .next { s with roff := s.magicLen, status := .ok } := by
  obtain ⟨hready, hmode⟩ := hs
  refine (anyModeCommand_run hready).trans (congrArg _ (endCommand_ok (t := { s with roff := s.magicLen }) ?_))
  rw [marker, hmode]

theorem execMagic_appends (hs : s.canEncode) (hf : s.fits s.magicLen) :
    exec .magic s = .next { s.appended (List.replicate s.magicLen true) with status := .ok } := by
  obtain ⟨hready, hmode⟩ := hs
  refine (anyModeCommand_run hready).trans (congrArg _ (endCommand_ok ?_))
  rw [marker, hmode]
  exact putBits_fits (by rwa [List.length_replicate])

theorem execPad_reads_nothing (hs : s.running) : exec .pad s = .next { s with r0 := 0, status := .ok } := by
  obtain ⟨⟨hready, hmode⟩, hhalt, -⟩ := hs
  have hturn : automaton (pure ()) s = .ok () { s with r0 := 0 } := by
    simp only [automaton, if_pos hhalt, Cmd.pure_run, Nat.sub_self]
    rfl
  refine (anyModeCommand_run hready).trans (congrArg _ (endCommand_ok (t := { s with r0 := 0 }) ?_))
  rw [Cmd.bind_run, look_run, ← hturn]
  dsimp only
  rw [hmode]

/-- The padding takes the stream to a byte boundary with copies of its last bit (R162). -/
theorem padOut_run {n : Nat} (hn : n = (8 - s.woff % 8) % 8) (hf : s.fits n) :
    padOut s = .ok () (s.appended (List.replicate n (s.out.bit (s.woff - 1)))) := by
  rw [padOut, Cmd.bind_run, readState_run]
  dsimp only
  by_cases hzero : s.woff % 8 = 0
  · obtain rfl : n = 0 := by omega
    rw [if_pos hzero]
    rfl
  · obtain rfl : n = 8 - s.woff % 8 := by omega
    rw [if_neg hzero]
    exact putBits_fits (by rwa [List.length_replicate])

theorem execPad_appends {n : Nat} (hs : s.canEncode) (hn : n = (8 - s.woff % 8) % 8) (hf : s.fits n) :
    exec .pad s = .next { s.appended (List.replicate n (s.out.bit (s.woff - 1))) with status := .ok } := by
  obtain ⟨hready, hmode⟩ := hs
  refine (anyModeCommand_run hready).trans (congrArg _ (endCommand_ok ?_))
  rw [Cmd.bind_run, look_run, hmode]
  exact padOut_run hn hf

end

/-- Settles O55: the terminator is a turn that halts, the marker and the padding are appends or read nothing. -/
theorem markerTerminatorAndPadding : Obligations.MarkerTerminatorAndPadding := fun _ =>
  ⟨execTerm_halts, execMagic_skips, execMagic_appends, execPad_reads_nothing, fun _ => execPad_appends⟩

end Sys2Proof.Machine
end
